-- ==== Sys2Proof/Word.lean ====
section
/-!
DEFINITION. The word types of the block: a byte, the 16-bit fields, the 32-bit millisecond counts (R16, R18).
-/

namespace Sys2Proof

/-- "a byte is 8 bits" (R16); also a unit id ("u8"). -/
abbrev Byte := BitVec 8

/-- The 16-bit quantities `transactionId`, `protocolId`, `length`, `crc` (R16). -/
abbrev Half := BitVec 16

/-- A 32-bit count of milliseconds: `NOW`, deadlines, configuration registers (R18, R24, R47). -/
abbrev Millis := BitVec 32

/-- A TCP connection handle: "an opaque value the TCP collaborator gave and the block only hands back" (R36).
DESIGN CHOICE (log 13), safe: a natural number names it; nothing is ever computed from it. -/
abbrev Conn := Nat

end Sys2Proof
end

