-- ==== Sys2Proof/Machine/Operands.lean ====
section
/-!
DEFINITION. Multi-byte fields (R21, R70, R71, R103, R108) and the operand and result letters B, H, W, S (R116, R117),
written as functions on byte strings, with no state.
-/

namespace Sys2Proof.Machine

/-- `hi8(v) = v[15:8]` (R21). -/
def hi8 (v : Half) : Byte := v.extractLsb' 8 8

/-- `lo8(v) = v[7:0]` (R21). -/
def lo8 (v : Half) : Byte := v.extractLsb' 0 8

/-- The 16-bit value `hi * 256 + lo`. -/
def half (hi lo : Byte) : Half := hi ++ lo

/-- The 32-bit value of four bytes, the first the most significant. -/
def full (b3 b2 b1 b0 : Byte) : Millis := b3 ++ b2 ++ b1 ++ b0

/-- `be16(s, i) = s[i] * 256 + s[i+1]` (R21, R70). Every rule that uses it has checked that both bytes are there; beyond the
string a byte counts as 0. -/
def be16 (s : List Byte) (i : Nat) : Half := half (s.getD i 0) (s.getD (i + 1) 0)

/-- `s[i] + 256 * s[i+1]`, the only little-endian field (R71, R108). -/
def le16 (s : List Byte) (i : Nat) : Half := half (s.getD (i + 1) 0) (s.getD i 0)

/-- A big-endian field is serialised `[hi8(v), lo8(v)]` (R21). -/
def beBytes (v : Half) : List Byte := [hi8 v, lo8 v]

/-- The CRC is serialised little-endian, `[lo8(v), hi8(v)]` (R21, R108). -/
def leBytes (v : Half) : List Byte := [lo8 v, hi8 v]

/-- The substring `s[a..b)` (R20). -/
def slice (s : List Byte) (a b : Nat) : List Byte := (s.drop a).take (b - a)

/-- Format `N`: the empty format. -/
def encNone : Unit → List Byte := fun _ => []

/-- Letter `B` (R116). -/
def encB (b : Byte) : List Byte := [b]

/-- Letter `H`: "a 16-bit value, big-endian, two bytes" (R116). -/
def encH (v : Half) : List Byte := beBytes v

/-- Letter `W`: "a 32-bit value, big-endian, four bytes" (R116). -/
def encW (v : Millis) : List Byte :=
  [v.extractLsb' 24 8, v.extractLsb' 16 8, v.extractLsb' 8 8, v.extractLsb' 0 8]

/-- Letter `S`: "a byte string, encoded as its length as an `H` followed by that many bytes" (R116). -/
def encS (s : List Byte) : List Byte := encH (BitVec.ofNat 16 s.length) ++ s

/-- "A Boolean is a `B` of 0 or 1" (R117). -/
def encBool (b : Bool) : List Byte := encB (if b then 1 else 0)

/-- "An optional frame is a `B` flag, 1 followed by an `S` when present and 0 when absent" (R117). -/
def encOptS : Option (List Byte) → List Byte
  | none => encB 0
  | some f => encB 1 ++ encS f

/-- Two results, one after the other. -/
def encBS (p : Byte × List Byte) : List Byte := encB p.1 ++ encS p.2

/-- The two bytes of CRC.READ, `B crcLow, B crcHigh` (R120). -/
def encBB (p : Byte × Byte) : List Byte := encB p.1 ++ encB p.2

/-- The result of MBAP.PARSE, `H transactionId, B unitId, H pduLength` (R120). -/
def encHBH (p : Half × Byte × Half) : List Byte := encH p.1 ++ encB p.2.1 ++ encH p.2.2

end Sys2Proof.Machine
end

