-- ==== Sys2Proof/Syntax.lean ====
section
/-!
DEFINITION. The 23 operations of R120 with their decoded operands (R115 allows the decoded form), one constructor per row
of spec/opcode_table.json, and the operand letters of the command formats (R116).
-/

namespace Sys2Proof

/-- An operation and its operands. The order is that of the table; the comment gives code, mnemonic and format. -/
inductive Instr where
  /-- 0x00 CRC.INIT, N (R144) -/
  | crcInit
  /-- 0x01 CRC.BYTE, B (R145) -/
  | crcByte (b : Byte)
  /-- 0x02 CRC.COMPUTE, S (R146) -/
  | crcCompute (bytes : List Byte)
  /-- 0x03 CRC.VERIFY, SH (R147) -/
  | crcVerify (bytes : List Byte) (crc : Half)
  /-- 0x04 CRC.READ, N (R148) -/
  | crcRead
  /-- 0x08 RTU.BUILD, BS (R161) -/
  | rtuBuild (unitId : Byte) (pdu : List Byte)
  /-- 0x09 RTU.PARSE, S (R162) -/
  | rtuParse (frame : List Byte)
  /-- 0x0C LNK.POLL, N (R184) -/
  | lnkPoll
  /-- 0x0D LNK.SEND, S (R188) -/
  | lnkSend (bytes : List Byte)
  /-- 0x0E LNK.RXBYTE, B (R182) -/
  | lnkRxbyte (b : Byte)
  /-- 0x10 TFA.APPEND, S (R211) -/
  | tfaAppend (chunk : List Byte)
  /-- 0x11 TFA.ISCOMPLETE, N (R212) -/
  | tfaIscomplete
  /-- 0x12 TFA.RESET, N (R213) -/
  | tfaReset
  /-- 0x14 MBAP.PARSE, S (R231) -/
  | mbapParse (frame : List Byte)
  /-- 0x15 MBAP.BUILD, HBH (R232) -/
  | mbapBuild (transactionId : Half) (unitId : Byte) (pduLength : Half)
  /-- 0x18 PDU.EXTRACT, SH (R251) -/
  | pduExtract (frame : List Byte) (pduLength : Half)
  /-- 0x19 PDU.WRAP, BS (R252) -/
  | pduWrap (unitId : Byte) (pdu : List Byte)
  /-- 0x1A PDU.STRIP, S (R253) -/
  | pduStrip (body : List Byte)
  /-- 0x1B PDU.TCPRESP, HBS (R254) -/
  | pduTcpresp (transactionId : Half) (unitId : Byte) (pdu : List Byte)
  /-- 0x1C GW.POLL, N (R280) -/
  | gwPoll
  /-- 0x1D GW.STEP, N (R267) -/
  | gwStep
  /-- 0x1E CFG.SET, BW (R301) -/
  | cfgSet (idx : Byte) (value : Millis)
  /-- 0x1F SYS.RESET, N (R303) -/
  | sysReset
deriving DecidableEq, Repr

/-- The operand letters of the command formats (R116): one byte, a 16-bit value, a 32-bit value, a byte string with a
16-bit length prefix. -/
inductive Letter where
  | B
  | H
  | W
  | S
deriving DecidableEq, Repr

/-- Why the command decoder refuses a command. Every one of these is answered with IllegalOp and no state change
(R121, R122). -/
inductive DecodeRefusal where
  /-- the command has no byte at all (R122; log 12) -/
  | noOperationByte
  /-- the operation byte has one of bits 7:5 set (R121) -/
  | highBitsSet
  /-- OPSEL is one of the nine reserved codes (R121) -/
  | reservedOpsel
  /-- the command is shorter than its format requires (R122) -/
  | tooShort
  /-- the length prefix of an `S` operand exceeds the bytes that follow (R122) -/
  | badLengthPrefix
  /-- bytes are left over after the last operand (R122) -/
  | bytesLeftOver
deriving DecidableEq, Repr

end Sys2Proof
end

