-- ==== Sys2Proof/WellFormed.lean ====
section
/-!
DEFINITION. When an operation can be written as a command: each byte-string operand fits the 16-bit length prefix of the
letter `S` (R116, R146). The widths of the other operands are their types'; a limit an operation sets on a well-formed
operand is that operation's own error (R122), not ill-formedness.
-/

namespace Sys2Proof

/-- The byte string fits the 16-bit length prefix of the letter `S`. -/
def fitsPrefix (s : List Byte) : Bool := decide (s.length < 65536)

/-- A command exists for the operation. -/
def Instr.wf : Instr → Bool
  | .crcInit => true
  | .crcByte _ => true
  | .crcCompute bytes => fitsPrefix bytes
  | .crcVerify bytes _ => fitsPrefix bytes
  | .crcRead => true
  | .rtuBuild _ pdu => fitsPrefix pdu
  | .rtuParse frame => fitsPrefix frame
  | .lnkPoll => true
  | .lnkSend bytes => fitsPrefix bytes
  | .lnkRxbyte _ => true
  | .tfaAppend chunk => fitsPrefix chunk
  | .tfaIscomplete => true
  | .tfaReset => true
  | .mbapParse frame => fitsPrefix frame
  | .mbapBuild _ _ _ => true
  | .pduExtract frame _ => fitsPrefix frame
  | .pduWrap _ pdu => fitsPrefix pdu
  | .pduStrip body => fitsPrefix body
  | .pduTcpresp _ _ pdu => fitsPrefix pdu
  | .gwPoll => true
  | .gwStep => true
  | .cfgSet _ _ => true
  | .sysReset => true

end Sys2Proof
end

