-- ==== Sys2Proof/Decode.lean ====
section
/-!
DEFINITION. The command decoder, total on any byte string (R115, R116, R120 to R123), the encoder written from the same
table, and the command of an opcode-table word.
-/

namespace Sys2Proof

open Sys2Proof.Machine

/-- Reads a `B` off the front. -/
def takeB : List Byte → Except DecodeRefusal (Byte × List Byte)
  | b :: r => .ok (b, r)
  | [] => .error .tooShort

/-- Reads an `H` off the front. -/
def takeH : List Byte → Except DecodeRefusal (Half × List Byte)
  | hi :: lo :: r => .ok (half hi lo, r)
  | _ => .error .tooShort

/-- Reads a `W` off the front. -/
def takeW : List Byte → Except DecodeRefusal (Millis × List Byte)
  | b3 :: b2 :: b1 :: b0 :: r => .ok (full b3 b2 b1 b0, r)
  | _ => .error .tooShort

/-- Reads an `S` off the front: refused when "its length prefix exceeds the bytes that follow" (R122). -/
def takeS (bs : List Byte) : Except DecodeRefusal (List Byte × List Byte) :=
  match takeH bs with
  | .error e => .error e
  | .ok (n, r) =>
    if n.toNat ≤ r.length then .ok (r.take n.toNat, r.drop n.toNat) else .error .badLengthPrefix

/-- The end of a command: refused "with bytes left over after its last operand" (R122). -/
def done (r : List Byte) (i : Instr) : Except DecodeRefusal Instr :=
  match r with
  | [] => .ok i
  | _ :: _ => .error .bytesLeftOver

/-- Format `N`. -/
def readN (i : Instr) (r : List Byte) : Except DecodeRefusal Instr := done r i

/-- Format `B`. -/
def readB (mk : Byte → Instr) (r : List Byte) : Except DecodeRefusal Instr :=
  match takeB r with
  | .error e => .error e
  | .ok (b, r) => done r (mk b)

/-- Format `S`. -/
def readS (mk : List Byte → Instr) (r : List Byte) : Except DecodeRefusal Instr :=
  match takeS r with
  | .error e => .error e
  | .ok (s, r) => done r (mk s)

/-- Format `SH`. -/
def readSH (mk : List Byte → Half → Instr) (r : List Byte) : Except DecodeRefusal Instr :=
  match takeS r with
  | .error e => .error e
  | .ok (s, r) =>
    match takeH r with
    | .error e => .error e
    | .ok (h, r) => done r (mk s h)

/-- Format `BS`. -/
def readBS (mk : Byte → List Byte → Instr) (r : List Byte) : Except DecodeRefusal Instr :=
  match takeB r with
  | .error e => .error e
  | .ok (b, r) =>
    match takeS r with
    | .error e => .error e
    | .ok (s, r) => done r (mk b s)

/-- Format `HBH`. -/
def readHBH (mk : Half → Byte → Half → Instr) (r : List Byte) : Except DecodeRefusal Instr :=
  match takeH r with
  | .error e => .error e
  | .ok (h, r) =>
    match takeB r with
    | .error e => .error e
    | .ok (b, r) =>
      match takeH r with
      | .error e => .error e
      | .ok (k, r) => done r (mk h b k)

/-- Format `HBS`. -/
def readHBS (mk : Half → Byte → List Byte → Instr) (r : List Byte) : Except DecodeRefusal Instr :=
  match takeH r with
  | .error e => .error e
  | .ok (h, r) =>
    match takeB r with
    | .error e => .error e
    | .ok (b, r) =>
      match takeS r with
      | .error e => .error e
      | .ok (s, r) => done r (mk h b s)

/-- Format `BW`. -/
def readBW (mk : Byte → Millis → Instr) (r : List Byte) : Except DecodeRefusal Instr :=
  match takeB r with
  | .error e => .error e
  | .ok (b, r) =>
    match takeW r with
    | .error e => .error e
    | .ok (w, r) => done r (mk b w)

/-- The table of R120, by OPSEL; every other OPSEL is reserved (R121). -/
def decodeOpsel (opsel : Nat) (r : List Byte) : Except DecodeRefusal Instr :=
  match opsel with
  | 0x00 => readN .crcInit r
  | 0x01 => readB .crcByte r
  | 0x02 => readS .crcCompute r
  | 0x03 => readSH .crcVerify r
  | 0x04 => readN .crcRead r
  | 0x08 => readBS .rtuBuild r
  | 0x09 => readS .rtuParse r
  | 0x0C => readN .lnkPoll r
  | 0x0D => readS .lnkSend r
  | 0x0E => readB .lnkRxbyte r
  | 0x10 => readS .tfaAppend r
  | 0x11 => readN .tfaIscomplete r
  | 0x12 => readN .tfaReset r
  | 0x14 => readS .mbapParse r
  | 0x15 => readHBH .mbapBuild r
  | 0x18 => readSH .pduExtract r
  | 0x19 => readBS .pduWrap r
  | 0x1A => readS .pduStrip r
  | 0x1B => readHBS .pduTcpresp r
  | 0x1C => readN .gwPoll r
  | 0x1D => readN .gwStep r
  | 0x1E => readBW .cfgSet r
  | 0x1F => readN .sysReset r
  | _ => .error .reservedOpsel

/-- "Byte 0 is the operation byte: bits 4:0 are the operation-select code `OPSEL`, bits 7:5 are 0. The operands follow in
the order of the operation's format" (R115). -/
def decode : List Byte → Except DecodeRefusal Instr
  | [] => .error .noOperationByte
  | op :: r => if op.toNat < 32 then decodeOpsel op.toNat r else .error .highBitsSet

/-- The operation byte of an operation (R120). -/
def Instr.opcode : Instr → Byte
  | .crcInit => 0x00
  | .crcByte _ => 0x01
  | .crcCompute _ => 0x02
  | .crcVerify _ _ => 0x03
  | .crcRead => 0x04
  | .rtuBuild _ _ => 0x08
  | .rtuParse _ => 0x09
  | .lnkPoll => 0x0C
  | .lnkSend _ => 0x0D
  | .lnkRxbyte _ => 0x0E
  | .tfaAppend _ => 0x10
  | .tfaIscomplete => 0x11
  | .tfaReset => 0x12
  | .mbapParse _ => 0x14
  | .mbapBuild _ _ _ => 0x15
  | .pduExtract _ _ => 0x18
  | .pduWrap _ _ => 0x19
  | .pduStrip _ => 0x1A
  | .pduTcpresp _ _ _ => 0x1B
  | .gwPoll => 0x1C
  | .gwStep => 0x1D
  | .cfgSet _ _ => 0x1E
  | .sysReset => 0x1F

/-- The operand bytes of an operation: "A format is the concatenation of its letters after the operation byte" (R116). -/
def Instr.operandBytes : Instr → List Byte
  | .crcInit => []
  | .crcByte b => encB b
  | .crcCompute bytes => encS bytes
  | .crcVerify bytes crc => encS bytes ++ encH crc
  | .crcRead => []
  | .rtuBuild unitId pdu => encB unitId ++ encS pdu
  | .rtuParse frame => encS frame
  | .lnkPoll => []
  | .lnkSend bytes => encS bytes
  | .lnkRxbyte b => encB b
  | .tfaAppend chunk => encS chunk
  | .tfaIscomplete => []
  | .tfaReset => []
  | .mbapParse frame => encS frame
  | .mbapBuild transactionId unitId pduLength => encH transactionId ++ encB unitId ++ encH pduLength
  | .pduExtract frame pduLength => encS frame ++ encH pduLength
  | .pduWrap unitId pdu => encB unitId ++ encS pdu
  | .pduStrip body => encS body
  | .pduTcpresp transactionId unitId pdu => encH transactionId ++ encB unitId ++ encS pdu
  | .gwPoll => []
  | .gwStep => []
  | .cfgSet idx value => encB idx ++ encW value
  | .sysReset => []

/-- The command of a well-formed operation (R115, R116). -/
def encode (i : Instr) : List Byte := i.opcode :: i.operandBytes

/-- The format of an operation code, as letters (R120); the empty format for a reserved code. -/
def formatOf (opsel : Nat) : List Letter :=
  match opsel with
  | 0x01 => [.B]
  | 0x02 => [.S]
  | 0x03 => [.S, .H]
  | 0x08 => [.B, .S]
  | 0x09 => [.S]
  | 0x0D => [.S]
  | 0x0E => [.B]
  | 0x10 => [.S]
  | 0x14 => [.S]
  | 0x15 => [.H, .B, .H]
  | 0x18 => [.S, .H]
  | 0x19 => [.B, .S]
  | 0x1A => [.S]
  | 0x1B => [.H, .B, .S]
  | 0x1E => [.B, .W]
  | _ => []

/-- The first n bytes, zeros standing for those that are not there. -/
def zeroPadded (n : Nat) (bs : List Byte) : List Byte := (bs ++ List.replicate n 0).take n

/-- The operand bytes of a format, zeros standing for those that are not there; bytes beyond the format stay. -/
def zeroFilled : List Letter → List Byte → List Byte
  | [], r => r
  | .B :: ls, r => zeroPadded 1 r ++ zeroFilled ls (r.drop 1)
  | .H :: ls, r => zeroPadded 2 r ++ zeroFilled ls (r.drop 2)
  | .W :: ls, r => zeroPadded 4 r ++ zeroFilled ls (r.drop 4)
  | .S :: ls, r =>
    let n := (be16 (zeroPadded 2 r) 0).toNat
    zeroPadded 2 r ++ (zeroPadded n (r.drop 2) ++ zeroFilled ls (r.drop (2 + n)))

/-- The n low bytes of a number, the least significant first. -/
def lowBytes : Nat → Nat → List Byte
  | 0, _ => []
  | n + 1, w => BitVec.ofNat 8 w :: lowBytes n (w / 256)

/-- The command an opcode-table word stands for: its bytes, the first one the operation byte, and zeros for the operand
bytes the table gives no bits. DESIGN CHOICE (log 2), safe: the table gives each row its operation byte only. -/
def tableCommand (nbits w : Nat) : List Byte :=
  match lowBytes (nbits / 8) w with
  | [] => []
  | op :: r => op :: zeroFilled (formatOf op.toNat) r

/-- The operation the decoder reads from an opcode-table word. -/
def decodeTableWord (nbits w : Nat) : Option Instr :=
  match decode (tableCommand nbits w) with
  | .ok i => some i
  | .error _ => none

end Sys2Proof
end

