-- ==== Sys2Proof/Config.lean ====
section
/-!
DEFINITION. What an implementation fixes (R9 to R14) and the free values: constants without a body, so that no proof can
lean on a value of theirs.
-/

namespace Sys2Proof

/-- `TCP_CAP`, the capacity in bytes of TCPBUF and of TCPTX (R9). -/
def Config.TCP_CAP : Nat := 260

/-- `PDU_MAX`, the largest PDU length in bytes (R10). -/
def Config.PDU_MAX : Nat := 253

/-- The longest RTU frame: "unit id + PDU + 2-byte CRC" at `PDU_MAX` (R106), the bound RTU.PARSE and LNK.SEND check. -/
def Config.RTU_MAX : Nat := 256

/-- `SILENCE_MS_RESET` (R12). -/
def Config.SILENCE_MS_RESET : Millis := 5

/-- The open parameter `RTU_TIMEOUT_MS_RESET` less one: any number below 2^31 - 1 (R13, log 7). -/
opaque Config.rtuTimeoutResetPred : Fin 2147483647

/-- `RTU_TIMEOUT_MS_RESET`, "left OPEN as a named parameter", between 1 and 2^31 - 1 (R13). DESIGN CHOICE (log 7), safe:
an opaque constant that only keeps the spec's limits. -/
def Config.RTU_TIMEOUT_MS_RESET : Millis := BitVec.ofNat 32 (Config.rtuTimeoutResetPred.val + 1)

/-- The free value of the n-th draw where it is the first `env.now()` of all and is not placed: R18 bounds no first sample
(log 3). -/
opaque Config.freeNow : Nat → Millis

/-- By how much the n-th draw, an unplaced `env.now()`, is later than the sample before it: any number below 2^31, the limit
"non-decreasing modulo 2^32 from one sample to the next by less than 2^31" (R18; log 3, 4). -/
opaque Config.freeNowAdvance : Nat → Fin 2147483648

/-- The free value of the n-th unplaced `env.ser_read()` (R61, R341; log 3). -/
opaque Config.freeRx : Nat → List Byte

/-- The free value of the n-th unplaced `env.tcp_accept()` (R61, R340; log 3). -/
opaque Config.freeAccept : Nat → Option Conn

/-- The free value of the n-th unplaced `env.tcp_read(conn, maxLen)`, before it is cut at `maxLen` (R61, R340; log 3, 5). -/
opaque Config.freeRead : Nat → List Byte

/-- What TXN_TID reads as while there is no transaction: "holds no value" (R56, U11; log 9). -/
opaque Config.freeTid : Nat → Half

/-- What TXN_DEADLINE reads as while there is no transaction: "holds no value" (R56, U11; log 9). -/
opaque Config.freeDeadline : Nat → Millis

/-- What TXN_CONN reads as while there is no transaction: "holds no value" (R56, U11; log 9). -/
opaque Config.freeConn : Nat → Conn

end Sys2Proof
end

