-- ==== Sys2Proof/Machine/State.lean ====
section
/-!
DEFINITION. The state of the block as plain data: the registers and buffers of R30, the command and result ports (R115),
the output trace (R60), the environment's answers (R61) and the implementation parameters (R57); the outcomes of an
operation; the reset state (R55).
-/

namespace Sys2Proof.Machine

/-- The contents of a byte buffer: "the byte string of their valid prefix" (R56). Byte i of the string is the byte at offset
i; an offset at or beyond its length holds no value (R52). Equal contents are equal data. -/
abbrev Memory := List Byte

/-- The form a buffer's contents keep: "A buffer never grows past its capacity" (R78, R53). -/
def Memory.wf (cap : Nat) (m : Memory) : Bool := decide (m.length ≤ cap)

/-- The direction of the half-duplex line driver (R41, R60). -/
inductive Direction where
  /-- 0 -/
  | receive
  /-- 1 -/
  | transmit
deriving DecidableEq, Repr

/-- GW_STATE, the state of the gateway sequencer (R46). -/
inductive GwState where
  /-- 0, `Idle` -/
  | idle
  /-- 1, `AwaitingRtuResponse` -/
  | awaiting
deriving DecidableEq, Repr

/-- The fields of the Transaction (R36). TXN_PLEN is the length of `pdu`. -/
structure Txn where
  /-- TXN_TID -/
  tid : Half
  /-- TXN_UID -/
  uid : Byte
  /-- TXN_PDU, its valid prefix -/
  pdu : Memory
  /-- TXN_DEADLINE -/
  deadline : Millis
  /-- TXN_CONN -/
  conn : Conn
deriving DecidableEq, Repr

/-- The block's outputs (R60). -/
inductive Event where
  /-- `setDirection(transmit|receive)` -/
  | serDir (d : Direction)
  /-- `write(bytes)` -/
  | serWrite (bytes : List Byte)
  /-- `flushUntilSent()` having returned -/
  | serFlush
  /-- `send(connection, bytes)` -/
  | tcpSend (conn : Conn) (bytes : List Byte)
deriving DecidableEq, Repr

/-- The error statuses (R320). Ending with one is a next state: the operation is over, its status is on the result port and
the block is ready for the next operation (R333, R334). -/
inductive ErrorKind where
  /-- 1 -/
  | invalidMbapHeader
  /-- 2 -/
  | rtuTimeout
  /-- 3 -/
  | rtuCrcMismatch
  /-- 4 -/
  | frameOverflow
  /-- 5 -/
  | pduTooLarge
  /-- 6 -/
  | frameTooShort
  /-- 7 -/
  | illegalOp
deriving DecidableEq, Repr

/-- How an operation ends: status OK with a result, or an error status and nothing else (R23, R320). -/
inductive Answer (α : Type) where
  /-- `return (OK, r)` -/
  | ok (r : α)
  /-- `raise e()` -/
  | error (e : ErrorKind)
deriving DecidableEq, Repr

/-- The outcomes of GW.STEP and GW.POLL (R266). -/
inductive GwOutcome where
  /-- 0 -/
  | noConnection
  /-- 1 -/
  | incomplete
  /-- 2 -/
  | forwarded
  /-- 3 -/
  | waiting
  /-- 4 -/
  | responded
deriving DecidableEq, Repr

/-- The environment's answers (R61). MODEL's own (log 3): each queue holds placed answers, the next one first; a call whose
queue is empty gets a free value, applied to the counter `drawn`. -/
structure Env where
  /-- answers of `env.now()` -/
  nowQ : List Millis
  /-- answers of `env.ser_read()` -/
  rxQ : List (List Byte)
  /-- answers of `env.tcp_accept()` -/
  acceptQ : List (Option Conn)
  /-- answers of `env.tcp_read(conn, maxLen)` -/
  readQ : List (List Byte)
  /-- how many free values have been drawn -/
  drawn : Nat
  /-- the last sample of NOW that was taken, if one was: what R18 relates the next one to (log 4) -/
  lastNow : Option Millis
deriving DecidableEq, Repr

/-- The implementation parameters that are open or have only a default (R11, R13, R14). MODEL's own place for them (log 7):
"parameters of the step relation" (R57); no step changes them. -/
structure Params where
  /-- `LNK_CAP` - 256, at most 4 (R11) -/
  lnkCapOver : Fin 5
  /-- `LNK_CLEAR_ON_SEND` (R14) -/
  lnkClearOnSend : Bool
  /-- `RTU_TIMEOUT_MS_RESET` (R13) -/
  rtuTimeoutMsReset : Millis
deriving DecidableEq, Repr

/-- `LNK_CAP`, between 256 and 260 (R11). -/
def Params.lnkCap (p : Params) : Nat := 256 + p.lnkCapOver.val

/-- The whole state. -/
structure State where
  /-- CRC (R31) -/
  crc : Half
  /-- LNKBUF below LNK_LEN (R32, R52, R56) -/
  lnkBuf : Memory
  /-- LNK_LAST_RX (R33) -/
  lnkLastRx : Millis
  /-- LNK_DIR (R41) -/
  lnkDir : Direction
  /-- TCPBUF below TFA_LEN (R34, R52, R56) -/
  tcpBuf : Memory
  /-- TCPTX below TCPTX_LEN (R35, R52, R56) -/
  tcpTx : Memory
  /-- GW_STATE (R46) -/
  gwState : GwState
  /-- the Transaction, present when TXN_VALID = 1 (R36, R42, R56) -/
  txn : Option Txn
  /-- CFG_SILENCE_MS, configuration register 0 (R48) -/
  cfgSilenceMs : Millis
  /-- CFG_RTU_TIMEOUT_MS, configuration register 1 (R49) -/
  cfgRtuTimeoutMs : Millis
  /-- the command port: commands issued and not yet taken, oldest first (R115; log 1) -/
  cmdPort : List (List Byte)
  /-- the result port: the answers given, oldest first (R115, R117; log 11) -/
  resPort : List (List Byte)
  /-- the output trace, oldest event first (R60; log 11) -/
  trace : List Event
  /-- MODEL's own: a GW.POLL is in progress (R280; log 10) -/
  gwPolling : Bool
  /-- MODEL's own: the environment's answers (R61; log 3) -/
  env : Env
  /-- MODEL's own: the implementation parameters (R57; log 7) -/
  par : Params
deriving DecidableEq, Repr

/-- LNK_LEN (R32), from its one home. -/
def State.lnkLen (s : State) : Nat := s.lnkBuf.length

/-- TFA_LEN (R34), from its one home. -/
def State.tfaLen (s : State) : Nat := s.tcpBuf.length

/-- TCPTX_LEN (R35), from its one home. -/
def State.tcpTxLen (s : State) : Nat := s.tcpTx.length

/-- TXN_PLEN (R36), from its one home. -/
def Txn.plen (t : Txn) : Nat := t.pdu.length

/-- TXN_VALID (R42), from its one home. -/
def State.txnValid (s : State) : Bool := s.txn.isSome

/-- Reasons to stop with a fault. There is none: every operation ends with a status (R320), and the spec describes nothing
that stops the block but a flush that never returns, which it takes as excluded (R374; log 6). -/
inductive Fault where
deriving DecidableEq, Repr

/-- Reasons to refuse an instruction. -/
inductive Refusal where
  /-- Raised by exec's arm of an instruction that has no meaning yet; safe. No arm raises it now. -/
  | notModelled (mnemonic : String)
deriving DecidableEq, Repr

/-- The parameters' defaults (R11, R14) and the open constant of R13 (log 7). -/
def Params.default : Params where
  lnkCapOver := 0
  lnkClearOnSend := false
  rtuTimeoutMsReset := Config.RTU_TIMEOUT_MS_RESET

/-- The reset state (R55), "also the power-on state" (R360), with nothing on the ports, nothing in the trace and no answer
placed (log 1, 3, 11). -/
def State.reset : State where
  crc := 0xFFFF
  lnkBuf := []
  lnkLastRx := 0
  lnkDir := .receive
  tcpBuf := []
  tcpTx := []
  gwState := .idle
  txn := none
  cfgSilenceMs := Config.SILENCE_MS_RESET
  cfgRtuTimeoutMs := Config.RTU_TIMEOUT_MS_RESET
  cmdPort := []
  resPort := []
  trace := []
  gwPolling := false
  env := { nowQ := [], rxQ := [], acceptQ := [], readQ := [], drawn := 0, lastNow := none }
  par := Params.default

end Sys2Proof.Machine
end

