-- ==== Sys2Proof/Machine/Ops.lean ====
section
/-!
DEFINITION. The named operations: reads and writes of a buffer (R22), the environment's answers (R61), the output trace
(R60), the line driver (R41), the transaction's registers (R36), the ways an operation ends (R23, R117, R320), and the
command port (R115).
-/

namespace Sys2Proof.Machine

/-! ## Buffers (R22, R52) -/

/-- `MemRead(BUF, off, n)` (R22). -/
def Memory.read (m : Memory) (off n : Nat) : List Byte := (m.drop off).take n

/-- `MemWrite(BUF, off, n, s)` with n the length of s (R22), at an offset not beyond the length. -/
def Memory.write (m : Memory) (off : Nat) (s : List Byte) : Memory := m.take off ++ s ++ m.drop (off + s.length)

/-- The write `LEN <- n` of a buffer's length register, for n not beyond the bytes written: bytes at or beyond it hold no
value from then on (R52). -/
def Memory.setLen (m : Memory) (n : Nat) : Memory := m.take n

/-- The byte at an offset, no value at or beyond the length (R52). -/
def Memory.byteAt (m : Memory) (off : Nat) : Option Byte := m[off]?

/-! ## The environment's answers (R61): the next placed one, or a free value (log 3) -/

/-- A sample of NOW that is not placed: the last one and a free advance of less than 2^31 (R18; log 4). -/
def Env.unplacedNow (e : Env) : Millis :=
  match e.lastNow with
  | some t => t + BitVec.ofNat 32 (Config.freeNowAdvance e.drawn).val
  | none => Config.freeNow e.drawn

/-- `env.now()`. A placed answer is taken whatever it is; that it is not before the last sample is the premise
`Env.NowMonotone` (R18; log 4). -/
def Env.now (e : Env) : Millis :=
  match e.nowQ with
  | t :: _ => t
  | [] => e.unplacedNow

/-- The environment after an `env.now()`. -/
def Env.afterNow (e : Env) : Env :=
  match e.nowQ with
  | _ :: q => { e with nowQ := q, lastNow := some e.now }
  | [] => { e with drawn := e.drawn + 1, lastNow := some e.now }

/-- `env.ser_read()`. -/
def Env.serRead (e : Env) : List Byte :=
  match e.rxQ with
  | bs :: _ => bs
  | [] => Config.freeRx e.drawn

/-- The environment after an `env.ser_read()`: the bytes returned are consumed (R77). -/
def Env.afterSerRead (e : Env) : Env :=
  match e.rxQ with
  | _ :: q => { e with rxQ := q }
  | [] => { e with drawn := e.drawn + 1 }

/-- `env.tcp_accept()`. -/
def Env.tcpAccept (e : Env) : Option Conn :=
  match e.acceptQ with
  | r :: _ => r
  | [] => Config.freeAccept e.drawn

/-- The environment after an `env.tcp_accept()`. -/
def Env.afterTcpAccept (e : Env) : Env :=
  match e.acceptQ with
  | _ :: q => { e with acceptQ := q }
  | [] => { e with drawn := e.drawn + 1 }

/-- `env.tcp_read(conn, maxLen)`: "a string of length 0 to `maxLen`" (R61). DESIGN CHOICE (log 5), safe: an answer longer
than that is cut (U18). -/
def Env.tcpRead (e : Env) (maxLen : Nat) : List Byte :=
  match e.readQ with
  | bs :: _ => bs.take maxLen
  | [] => (Config.freeRead e.drawn).take maxLen

/-- The environment after an `env.tcp_read(conn, maxLen)`. -/
def Env.afterTcpRead (e : Env) : Env :=
  match e.readQ with
  | _ :: q => { e with readQ := q }
  | [] => { e with drawn := e.drawn + 1 }

/-- The state after an `env.now()`. -/
def State.afterNow (s : State) : State := { s with env := s.env.afterNow }

/-- The state after an `env.ser_read()`. -/
def State.afterSerRead (s : State) : State := { s with env := s.env.afterSerRead }

/-- The state after an `env.tcp_accept()`. -/
def State.afterTcpAccept (s : State) : State := { s with env := s.env.afterTcpAccept }

/-- The state after an `env.tcp_read(conn, maxLen)`. -/
def State.afterTcpRead (s : State) : State := { s with env := s.env.afterTcpRead }

/-! ## Outputs (R60) and the line driver (R41, R342) -/

/-- `emit Ev(args)`: "appends one event to the output trace" (R23). -/
def State.emit (s : State) (ev : Event) : State := { s with trace := s.trace ++ [ev] }

/-- `LNK_DIR <- d ; emit SerDir(d)`, the call `setDirection(d)` (R188, R342). -/
def State.setDirection (s : State) (d : Direction) : State := ({ s with lnkDir := d } : State).emit (.serDir d)

/-! ## The transaction's registers (R36): free values while there is no transaction (R56, U11; log 9) -/

/-- TXN_TID. -/
def State.txnTid (s : State) : Half :=
  match s.txn with
  | some t => t.tid
  | none => Config.freeTid s.env.drawn

/-- TXN_DEADLINE. -/
def State.txnDeadline (s : State) : Millis :=
  match s.txn with
  | some t => t.deadline
  | none => Config.freeDeadline s.env.drawn

/-- TXN_CONN. -/
def State.txnConn (s : State) : Conn :=
  match s.txn with
  | some t => t.conn
  | none => Config.freeConn s.env.drawn

/-! ## How an operation ends (R23, R117, R320) -/

/-- The status code of an error (R320). -/
def ErrorKind.code : ErrorKind → Byte
  | .invalidMbapHeader => 1
  | .rtuTimeout => 2
  | .rtuCrcMismatch => 3
  | .frameOverflow => 4
  | .pduTooLarge => 5
  | .frameTooShort => 6
  | .illegalOp => 7

/-- The outcome byte of GW.STEP and GW.POLL (R266). -/
def GwOutcome.code : GwOutcome → Byte
  | .noConnection => 0
  | .incomplete => 1
  | .forwarded => 2
  | .waiting => 3
  | .responded => 4

/-- The error of a raise in a step's own words: the operation ends with that error, "after doing exactly the state writes
the rule lists before it and none after" (R23). This is what stands in the place of taking an exception: no state is saved,
no mode changes and control goes nowhere (R333). -/
def State.raise {α : Type} (s : State) (e : ErrorKind) : State × Answer α := (s, .error e)

/-- `return (OK, r)` (R23). -/
def State.ret {α : Type} (s : State) (r : α) : State × Answer α := (s, .ok r)

/-- The bytes of an answer: "Every result starts with the status byte; when the status is not OK (0) the result stops
there" (R117). -/
def Answer.bytes {α : Type} (enc : α → List Byte) : Answer α → List Byte
  | .ok r => 0 :: enc r
  | .error e => [e.code]

/-- The block "answers on a result port" (R115). -/
def State.post (s : State) (answer : List Byte) : State := { s with resPort := s.resPort ++ [answer] }

/-- An operation's end as the host sees it: its state, with its answer on the result port. -/
def finish {α : Type} (enc : α → List Byte) (r : State × Answer α) : State := r.1.post (r.2.bytes enc)

/-! ## The command port (R115, R121, R122) -/

/-- The state once the oldest command has been taken. -/
def State.takeCommand (s : State) : State := { s with cmdPort := s.cmdPort.tail }

/-- A refused command: "status IllegalOp (7), no state change, no event, empty result" (R121). -/
def State.refuseCommand (s : State) : State := s.post [ErrorKind.illegalOp.code]

/-- The state with a command placed where the next step takes its command from. -/
def State.placeCommand (s : State) (command : List Byte) : State :=
  { s with cmdPort := command :: s.cmdPort, gwPolling := false }

end Sys2Proof.Machine
end

