-- ==== Sys2Proof/Machine/Flags.lean ====
section
/-!
DEFINITION. The block has no condition codes: "Outcomes that a processor would put in flags (CRC match, frame complete,
frame ready) are returned as the result of the operation that computes them" (R40). Here are the conditions themselves: the
time comparisons (R24), the silence test (R184), completeness and overflow of the assembler (R212, R217).
-/

namespace Sys2Proof.Machine

/-- `elapsed(a, b) = (a - b) mod 2^32`, "the time from b to a" (R24). -/
def elapsed (a b : Millis) : Millis := a - b

/-- `reached(a, d)` is true when `(a - d) mod 2^32 < 2^31` (R24). -/
def reached (a d : Millis) : Bool := decide ((a - d).toNat < 2147483648)

/-- `LNK_LEN > 0 and elapsed(now, LNK_LAST_RX) > CFG_SILENCE_MS`, a strict comparison (R184). -/
def State.lineSilent (s : State) (now : Millis) : Bool :=
  decide (0 < s.lnkLen) && decide (s.cfgSilenceMs.toNat < (elapsed now s.lnkLastRx).toNat)

/-- The declared length, `be16(TCPBUF, 4)` (R212). -/
def declaredLength (m : Memory) : Nat := (be16 m 4).toNat

/-- What TFA.ISCOMPLETE answers (R212). The sum is over the naturals (R25). -/
def frameComplete (m : Memory) : Bool := decide (7 ≤ m.length) && decide (6 + declaredLength m ≤ m.length)

/-- `tfa_overflow`: "the buffer is full and the frame it holds can never complete" (R217). -/
def tfaOverflow (m : Memory) : Bool := decide (m.length = Config.TCP_CAP) && !frameComplete m

end Sys2Proof.Machine
end

