-- ==== Sys2Proof/Machine/Link.lean ====
section
/-!
DEFINITION. The half-duplex RTU link framer: LNK.RXBYTE, LNK.POLL, LNK.SEND (R180 to R194).
-/

namespace Sys2Proof.Machine

/-- The accumulation of one byte stamped with `now`: the pseudocode of R182 after its sample of NOW. -/
def lnkAccept (now : Millis) (b : Byte) (s : State) : State × Answer Unit :=
  if s.lnkLen = s.par.lnkCap then ({ s with lnkBuf := s.lnkBuf.setLen 0 } : State).raise .frameOverflow
  else ({ s with lnkBuf := s.lnkBuf.write s.lnkLen [b], lnkLastRx := now } : State).ret ()

/-- The loop of LNK.POLL: LNK.RXBYTE of each byte in the order received with the same `now`, "ignoring its status" (R184). -/
def lnkAcceptAll (now : Millis) : List Byte → State → State
  | [], s => s
  | b :: r, s => lnkAcceptAll now r (lnkAccept now b s).1

/-- LNK.RXBYTE: NOW "sampled once for the operation" (R182). -/
def lnkRxbyteOp (b : Byte) (s : State) : State × Answer Unit := lnkAccept s.env.now b s.afterNow

/-- The state of LNK.POLL when the bytes read have been appended (R184). -/
def lnkGather (s : State) : State := lnkAcceptAll s.env.now s.afterNow.env.serRead s.afterNow.afterSerRead

/-- LNK.POLL (R184): bytes first, then the silence test; a delivered frame leaves the framer idle. The status is always OK. -/
def lnkPollOp (s : State) : State × Option (List Byte) :=
  let s1 := lnkGather s
  if s1.lineSilent s.env.now then
    ({ s1 with lnkBuf := s1.lnkBuf.setLen 0 }, some (s1.lnkBuf.read 0 s1.lnkLen))
  else (s1, none)

/-- `if LNK_CLEAR_ON_SEND then LNK_LEN <- 0` (R190). -/
def clearOnSend (s : State) : State :=
  if s.par.lnkClearOnSend then { s with lnkBuf := s.lnkBuf.setLen 0 } else s

/-- LNK.SEND (R188): the direction switch brackets the write and the flush. That the flush returns is the collaborator's
duty (R374; log 6). -/
def lnkSendOp (bytes : List Byte) (s : State) : State × Answer Unit :=
  if Config.RTU_MAX < bytes.length then s.raise .frameOverflow
  else
    let s1 := (clearOnSend s).setDirection .transmit
    let s2 := s1.emit (.serWrite bytes)
    let s3 := s2.emit .serFlush
    (s3.setDirection .receive).ret ()

/-- The instruction LNK.RXBYTE. -/
def execLnkRxbyte (b : Byte) (s : State) : Host.Outcome State Fault Refusal := .next (finish encNone (lnkRxbyteOp b s))

/-- The instruction LNK.POLL; result `optional S frame` (R120). -/
def execLnkPoll (s : State) : Host.Outcome State Fault Refusal :=
  .next (finish encOptS ((lnkPollOp s).1.ret (lnkPollOp s).2))

/-- The instruction LNK.SEND. -/
def execLnkSend (bytes : List Byte) (s : State) : Host.Outcome State Fault Refusal :=
  .next (finish encNone (lnkSendOp bytes s))

end Sys2Proof.Machine
end

