-- ==== Sys2Proof/Machine/Crc.lean ====
section
/-!
DEFINITION. The CRC unit: the algorithm (R140 to R142) and CRC.INIT, CRC.BYTE, CRC.COMPUTE, CRC.VERIFY, CRC.READ
(R144 to R148).
-/

namespace Sys2Proof.Machine

/-- `crc_bit(c) = if c[0] = 1 then (c >> 1) xor 0xA001 else (c >> 1)` (R141). -/
def crcBit (c : Half) : Half := if c.getLsbD 0 then (c >>> 1) ^^^ 0xA001 else c >>> 1

/-- `crc_byte(c, b)`: the byte XORed into the low half, then eight bit steps (R141). -/
def crcStep (c : Half) (b : Byte) : Half :=
  crcBit (crcBit (crcBit (crcBit (crcBit (crcBit (crcBit (crcBit (c ^^^ b.setWidth 16))))))))

/-- `crc16(s)`: "start from 0xFFFF and apply the byte step to each byte in order, first byte first" (R142). -/
def crc16 (s : List Byte) : Half := s.foldl crcStep 0xFFFF

/-- CRC.INIT (R144). -/
def crcInitOp (s : State) : State × Answer Unit := ({ s with crc := 0xFFFF } : State).ret ()

/-- CRC.BYTE (R145). -/
def crcByteOp (b : Byte) (s : State) : State × Answer Unit := ({ s with crc := crcStep s.crc b } : State).ret ()

/-- CRC.COMPUTE (R146). -/
def crcComputeOp (bytes : List Byte) (s : State) : State × Answer Half :=
  ({ s with crc := crc16 bytes } : State).ret (crc16 bytes)

/-- CRC.VERIFY: equality of all 16 bits (R147). -/
def crcVerifyOp (bytes : List Byte) (crc : Half) (s : State) : State × Answer Bool :=
  ({ s with crc := crc16 bytes } : State).ret (decide (crc16 bytes = crc))

/-- CRC.READ: "low byte first, then high byte" (R148). -/
def crcReadOp (s : State) : State × Answer (Byte × Byte) := s.ret (lo8 s.crc, hi8 s.crc)

/-- The instruction CRC.INIT. -/
def execCrcInit (s : State) : Host.Outcome State Fault Refusal := .next (finish encNone (crcInitOp s))

/-- The instruction CRC.BYTE. -/
def execCrcByte (b : Byte) (s : State) : Host.Outcome State Fault Refusal := .next (finish encNone (crcByteOp b s))

/-- The instruction CRC.COMPUTE; result `H crc` (R120). -/
def execCrcCompute (bytes : List Byte) (s : State) : Host.Outcome State Fault Refusal :=
  .next (finish encH (crcComputeOp bytes s))

/-- The instruction CRC.VERIFY; result `B match` (R120). -/
def execCrcVerify (bytes : List Byte) (crc : Half) (s : State) : Host.Outcome State Fault Refusal :=
  .next (finish encBool (crcVerifyOp bytes crc s))

/-- The instruction CRC.READ; result `B crcLow, B crcHigh` (R120). -/
def execCrcRead (s : State) : Host.Outcome State Fault Refusal := .next (finish encBB (crcReadOp s))

end Sys2Proof.Machine
end

