-- ==== Sys2Proof/Machine/Mbap.lean ====
section
/-!
DEFINITION. The MBAP header codec: MBAP.PARSE and MBAP.BUILD (R230 to R234).
-/

namespace Sys2Proof.Machine

/-- MBAP.PARSE as a function of its operand; the checks in the order of R231: short frame, protocol id, length 0 (R324). -/
def mbapParse (frame : List Byte) : Answer (Half × Byte × Half) :=
  if frame.length < 7 then .error .invalidMbapHeader
  else if be16 frame 2 ≠ 0 then .error .invalidMbapHeader
  else if be16 frame 4 = 0 then .error .invalidMbapHeader
  else .ok (be16 frame 0, frame.getD 6 0, be16 frame 4 - 1)

/-- The header of R232: transaction id, protocol id 0, `length = pduLength + 1`, unit id. -/
def mbapHeader (transactionId : Half) (unitId : Byte) (pduLength : Half) : List Byte :=
  beBytes transactionId ++ [0x00, 0x00] ++ beBytes (pduLength + 1) ++ [unitId]

/-- MBAP.PARSE: "Reads only its operand; writes no state" (R231). -/
def mbapParseOp (frame : List Byte) (s : State) : State × Answer (Half × Byte × Half) := (s, mbapParse frame)

/-- MBAP.BUILD: the header goes to TCPTX and is the result (R232). -/
def mbapBuildOp (transactionId : Half) (unitId : Byte) (pduLength : Half) (s : State) : State × Answer (List Byte) :=
  if Config.PDU_MAX < pduLength.toNat then s.raise .pduTooLarge
  else
    let h := mbapHeader transactionId unitId pduLength
    ({ s with tcpTx := (s.tcpTx.write 0 h).setLen 7 } : State).ret h

/-- The instruction MBAP.PARSE; result `H transactionId, B unitId, H pduLength` (R120). -/
def execMbapParse (frame : List Byte) (s : State) : Host.Outcome State Fault Refusal :=
  .next (finish encHBH (mbapParseOp frame s))

/-- The instruction MBAP.BUILD; result `S header` (R120). -/
def execMbapBuild (transactionId : Half) (unitId : Byte) (pduLength : Half) (s : State) :
    Host.Outcome State Fault Refusal :=
  .next (finish encS (mbapBuildOp transactionId unitId pduLength s))

end Sys2Proof.Machine
end

