-- ==== Sys2Proof/Machine/Pdu.lean ====
section
/-!
DEFINITION. The PDU extractor and builder: PDU.EXTRACT, PDU.WRAP, PDU.STRIP, PDU.TCPRESP (R250 to R254).
-/

namespace Sys2Proof.Machine

/-- The slice of PDU.EXTRACT, a function of its operands: `frame[7 .. 7 + pduLength)` (R251). -/
def pduExtract (frame : List Byte) (pduLength : Half) : Answer (List Byte) :=
  if Config.PDU_MAX < pduLength.toNat then .error .pduTooLarge
  else if frame.length < 7 + pduLength.toNat then .error .frameTooShort
  else .ok (slice frame 7 (7 + pduLength.toNat))

/-- PDU.WRAP, a function of its operands: `[unitId] ++ pdu` (R252). -/
def pduWrap (unitId : Byte) (pdu : List Byte) : Answer (List Byte) :=
  if Config.PDU_MAX < pdu.length then .error .pduTooLarge else .ok ([unitId] ++ pdu)

/-- PDU.STRIP, a function of its operand: `body[0], body[1 .. len(body))` (R253). -/
def pduStrip (body : List Byte) : Answer (Byte × List Byte) :=
  if body.length < 1 then .error .frameTooShort
  else if Config.PDU_MAX + 1 < body.length then .error .pduTooLarge
  else .ok (body.getD 0 0, slice body 1 body.length)

/-- PDU.EXTRACT: "Reads only its operands; writes no state" (R251). -/
def pduExtractOp (frame : List Byte) (pduLength : Half) (s : State) : State × Answer (List Byte) :=
  (s, pduExtract frame pduLength)

/-- PDU.WRAP: "Writes no state" (R252). -/
def pduWrapOp (unitId : Byte) (pdu : List Byte) (s : State) : State × Answer (List Byte) := (s, pduWrap unitId pdu)

/-- PDU.STRIP: "Writes no state" (R253). -/
def pduStripOp (body : List Byte) (s : State) : State × Answer (Byte × List Byte) := (s, pduStrip body)

/-- PDU.TCPRESP: "the header of MBAP.BUILD followed by the PDU, assembled in TCPTX" (R254). -/
def pduTcprespOp (transactionId : Half) (unitId : Byte) (pdu : List Byte) (s : State) : State × Answer (List Byte) :=
  if Config.PDU_MAX < pdu.length then s.raise .pduTooLarge
  else
    let s1 := (mbapBuildOp transactionId unitId (BitVec.ofNat 16 pdu.length) s).1
    let s2 : State := { s1 with tcpTx := (s1.tcpTx.write 7 pdu).setLen (7 + pdu.length) }
    s2.ret (s2.tcpTx.read 0 s2.tcpTxLen)

/-- The instruction PDU.EXTRACT; result `S pdu` (R120). -/
def execPduExtract (frame : List Byte) (pduLength : Half) (s : State) : Host.Outcome State Fault Refusal :=
  .next (finish encS (pduExtractOp frame pduLength s))

/-- The instruction PDU.WRAP; result `S body` (R120). -/
def execPduWrap (unitId : Byte) (pdu : List Byte) (s : State) : Host.Outcome State Fault Refusal :=
  .next (finish encS (pduWrapOp unitId pdu s))

/-- The instruction PDU.STRIP; result `B unitId, S pdu` (R120). -/
def execPduStrip (body : List Byte) (s : State) : Host.Outcome State Fault Refusal :=
  .next (finish encBS (pduStripOp body s))

/-- The instruction PDU.TCPRESP; result `S frame` (R120). -/
def execPduTcpresp (transactionId : Half) (unitId : Byte) (pdu : List Byte) (s : State) :
    Host.Outcome State Fault Refusal :=
  .next (finish encS (pduTcprespOp transactionId unitId pdu s))

end Sys2Proof.Machine
end

