-- ==== Sys2Proof/Machine/Rtu.lean ====
section
/-!
DEFINITION. The RTU frame codec: RTU.BUILD and RTU.PARSE (R160 to R164).
-/

namespace Sys2Proof.Machine

/-- RTU.BUILD (R161): PDU.WRAP, then the CRC of the result appended low byte first (R126). -/
def rtuBuildOp (unitId : Byte) (pdu : List Byte) (s : State) : State × Answer (List Byte) :=
  match pduWrap unitId pdu with
  | .error e => s.raise e
  | .ok body => ({ s with crc := crc16 body } : State).ret (body ++ leBytes (crc16 body))

/-- RTU.PARSE (R162): the two length checks before anything is written; the recomputed CRC written whether it matches or
not; then PDU.STRIP of the body. -/
def rtuParseOp (frame : List Byte) (s : State) : State × Answer (Byte × List Byte) :=
  if frame.length < 4 then s.raise .frameTooShort
  else if Config.RTU_MAX < frame.length then s.raise .frameOverflow
  else
    let body := slice frame 0 (frame.length - 2)
    let rx := le16 frame (frame.length - 2)
    let s1 : State := { s with crc := crc16 body }
    if crc16 body ≠ rx then s1.raise .rtuCrcMismatch else (s1, pduStrip body)

/-- The instruction RTU.BUILD; result `S frame` (R120). -/
def execRtuBuild (unitId : Byte) (pdu : List Byte) (s : State) : Host.Outcome State Fault Refusal :=
  .next (finish encS (rtuBuildOp unitId pdu s))

/-- The instruction RTU.PARSE; result `B unitId, S pdu` (R120). -/
def execRtuParse (frame : List Byte) (s : State) : Host.Outcome State Fault Refusal :=
  .next (finish encBS (rtuParseOp frame s))

end Sys2Proof.Machine
end

