-- ==== Sys2Proof/Machine/Tfa.lean ====
section
/-!
DEFINITION. The TCP frame assembler: TFA.APPEND, TFA.ISCOMPLETE, TFA.RESET (R210 to R217).
-/

namespace Sys2Proof.Machine

/-- How many bytes of a chunk TFA.APPEND takes: `min(len(chunk), TCP_CAP - TFA_LEN)` (R211). -/
def tfaRoom (chunk : List Byte) (s : State) : Nat := min chunk.length (Config.TCP_CAP - s.tfaLen)

/-- TFA.APPEND (R211). -/
def tfaAppendOp (chunk : List Byte) (s : State) : State × Answer Half :=
  let k := tfaRoom chunk s
  ({ s with tcpBuf := s.tcpBuf.write s.tfaLen (slice chunk 0 k) } : State).ret (BitVec.ofNat 16 k)

/-- TFA.ISCOMPLETE: "writes nothing" (R212). -/
def tfaIscompleteOp (s : State) : State × Answer Bool := s.ret (frameComplete s.tcpBuf)

/-- `TFA_LEN <- 0`: the whole buffer is cleared (R213). -/
def tfaClear (s : State) : State := { s with tcpBuf := s.tcpBuf.setLen 0 }

/-- TFA.RESET (R213). -/
def tfaResetOp (s : State) : State × Answer Unit := (tfaClear s).ret ()

/-- The instruction TFA.APPEND; result `H accepted` (R120). -/
def execTfaAppend (chunk : List Byte) (s : State) : Host.Outcome State Fault Refusal :=
  .next (finish encH (tfaAppendOp chunk s))

/-- The instruction TFA.ISCOMPLETE; result `B complete` (R120). -/
def execTfaIscomplete (s : State) : Host.Outcome State Fault Refusal := .next (finish encBool (tfaIscompleteOp s))

/-- The instruction TFA.RESET. -/
def execTfaReset (s : State) : Host.Outcome State Fault Refusal := .next (finish encNone (tfaResetOp s))

end Sys2Proof.Machine
end

