-- ==== Sys2Proof/Machine/Gateway.lean ====
section
/-!
DEFINITION. The gateway sequencer: GW.STEP (R267 to R278) and GW.POLL (R280).
-/

namespace Sys2Proof.Machine

/-- The end of a cycle: `TFA.RESET ; TXN_VALID <- 0 ; GW_STATE <- Idle` (R275 to R277). -/
def gwEnd (s : State) : State := { tfaClear s with txn := none, gwState := .idle }

/-- Forwarding (R272): the request frame is built and sent, the transaction created, the deadline set from NOW sampled after
the send. An error of RTU.BUILD would drop the request like any other oversized one (R273); it cannot occur here (R271). -/
def gwForward (conn : Conn) (tid : Half) (uid : Byte) (pdu : List Byte) (s : State) : State × Answer GwOutcome :=
  match rtuBuildOp uid pdu s with
  | (s1, .error e) => (tfaClear s1).raise e
  | (s1, .ok req) =>
    let s2 := (lnkSendOp req s1).1
    let t : Txn := { tid, uid, pdu, deadline := s2.env.now + s2.cfgRtuTimeoutMs, conn }
    ({ s2.afterNow with txn := some t, gwState := .awaiting } : State).ret .forwarded

/-- A complete frame (R270, R272, R273): header validation, the size check, the PDU. An error of PDU.EXTRACT cannot occur
here (R271). -/
def gwRequest (conn : Conn) (s : State) : State × Answer GwOutcome :=
  match mbapParse (s.tcpBuf.read 0 s.tfaLen) with
  | .error e => (tfaClear s).raise e
  | .ok (tid, uid, plen) =>
    if Config.PDU_MAX < plen.toNat then (tfaClear s).raise .pduTooLarge
    else
      match pduExtract (s.tcpBuf.read 0 s.tfaLen) plen with
      | .error e => (tfaClear s).raise e
      | .ok pdu => gwForward conn tid uid pdu s

/-- What has been read is complete, or overflowed, or has to wait for more (R268, R269). -/
def gwExamine (conn : Conn) (s : State) : State × Answer GwOutcome :=
  if frameComplete s.tcpBuf then gwRequest conn s
  else if s.tfaLen = Config.TCP_CAP then (tfaClear s).raise .frameOverflow
  else s.ret .incomplete

/-- The state when a connection's bytes have been read into the assembler, no more than there is room for (R268). -/
def gwRead (s : State) : State :=
  (tfaAppendOp (s.env.tcpRead (Config.TCP_CAP - s.tfaLen)) s.afterTcpRead).1

/-- The Idle step (R268 to R273). -/
def gwIdleStep (s : State) : State × Answer GwOutcome :=
  match s.env.tcpAccept with
  | none => s.afterTcpAccept.ret .noConnection
  | some conn => gwExamine conn (gwRead s.afterTcpAccept)

/-- A delivered frame (R275, R276): the reply's unit id and PDU go back under the request's transaction id; a bad reply ends
the cycle with no response. An error of PDU.TCPRESP cannot occur here (R275). -/
def gwReply (f : List Byte) (s : State) : State × Answer GwOutcome :=
  match rtuParseOp f s with
  | (s1, .error e) => (gwEnd s1).raise e
  | (s1, .ok (uid2, pdu2)) =>
    match pduTcprespOp s1.txnTid uid2 pdu2 s1 with
    | (s2, .error e) => (gwEnd s2).raise e
    | (s2, .ok resp) => (gwEnd (s2.emit (.tcpSend s2.txnConn resp))).ret .responded

/-- The Awaiting step (R274 to R278): one link poll and one sample of NOW; a frame comes before the deadline. -/
def gwAwaitStep (s : State) : State × Answer GwOutcome :=
  match lnkPollOp s with
  | (s1, some f) => gwReply f s1
  | (s1, none) => if reached s.env.now s1.txnDeadline then (gwEnd s1).raise .rtuTimeout else s1.ret .waiting

/-- GW.STEP (R267). -/
def gwStepOp (s : State) : State × Answer GwOutcome :=
  match s.gwState with
  | .idle => gwIdleStep s
  | .awaiting => gwAwaitStep s

/-- The loop of GW.POLL, "GW.STEP repeated until the sequencer is Idle again" (R126, R280), for at most n steps. -/
def gwLoop : Nat → State → State × Option (Answer GwOutcome)
  | 0, s => (s, none)
  | n + 1, s =>
    let r := gwStepOp s
    match r.1.gwState with
    | .idle => (r.1, some r.2)
    | .awaiting => gwLoop n r.1

/-- How many steps of the loop are taken before it is cut: one for each placed answer of NOW, and at least one. DESIGN
CHOICE (log 10), safe: the spec lets the loop run for ever; a GW.POLL that is cut is in progress, and the next step of the
machine goes on with it. -/
def gwLoopBound (s : State) : Nat := max 1 s.env.nowQ.length

/-- GW.POLL, started or continued (R280): ended, with "the result of the last step"; or in progress. -/
def gwPollRun (s : State) : State :=
  match gwLoop (gwLoopBound s) s with
  | (t, some a) => finish (fun o => encB (GwOutcome.code o)) (({ t with gwPolling := false } : State), a)
  | (t, none) => { t with gwPolling := true }

/-- The instruction GW.STEP; result `B outcome` (R120). -/
def execGwStep (s : State) : Host.Outcome State Fault Refusal :=
  .next (finish (fun o => encB (GwOutcome.code o)) (gwStepOp s))

/-- The instruction GW.POLL; result `B outcome` (R120). -/
def execGwPoll (s : State) : Host.Outcome State Fault Refusal := .next (gwPollRun s)

end Sys2Proof.Machine
end

