-- ==== Sys2Proof/Machine/System.lean ====
section
/-!
DEFINITION. The system operations CFG.SET and SYS.RESET (R300 to R303).
-/

namespace Sys2Proof.Machine

/-- The largest legal value of either configuration register, 2^31 - 1 (R48, R49). -/
def cfgMax : Nat := 2147483647

/-- CFG.SET (R301): the index before the value (R324). -/
def cfgSetOp (idx : Byte) (value : Millis) (s : State) : State × Answer Unit :=
  if idx = 0 then
    if cfgMax < value.toNat then s.raise .illegalOp
    else ({ s with cfgSilenceMs := value } : State).ret ()
  else if idx = 1 then
    if value = 0 ∨ cfgMax < value.toNat then s.raise .illegalOp
    else ({ s with cfgRtuTimeoutMs := value } : State).ret ()
  else s.raise .illegalOp

/-- The writes of SYS.RESET (R303), and no GW.POLL is in progress any more (log 10). The ports, the trace and the
environment are not touched. -/
def sysResetState (s : State) : State :=
  { s with
    crc := 0xFFFF
    lnkBuf := s.lnkBuf.setLen 0
    lnkLastRx := 0
    lnkDir := .receive
    tcpBuf := s.tcpBuf.setLen 0
    tcpTx := s.tcpTx.setLen 0
    gwState := .idle
    txn := none
    cfgSilenceMs := Config.SILENCE_MS_RESET
    cfgRtuTimeoutMs := s.par.rtuTimeoutMsReset
    gwPolling := false }

/-- SYS.RESET (R303). -/
def sysResetOp (s : State) : State × Answer Unit := (sysResetState s).ret ()

/-- The instruction CFG.SET. -/
def execCfgSet (idx : Byte) (value : Millis) (s : State) : Host.Outcome State Fault Refusal :=
  .next (finish encNone (cfgSetOp idx value s))

/-- The instruction SYS.RESET. -/
def execSysReset (s : State) : Host.Outcome State Fault Refusal := .next (finish encNone (sysResetOp s))

end Sys2Proof.Machine
end

