-- ==== Sys2Proof/Machine/Dispatch.lean ====
section
/-!
DEFINITION. The meaning of each operation, one arm per constructor, in the table's order.
-/

namespace Sys2Proof.Machine

def exec (i : Instr) (s : State) : Host.Outcome State Fault Refusal :=
  match i with
  | .crcInit => Sys2Proof.Machine.execCrcInit s
  | .crcByte b => Sys2Proof.Machine.execCrcByte b s
  | .crcCompute bytes => Sys2Proof.Machine.execCrcCompute bytes s
  | .crcVerify bytes crc => Sys2Proof.Machine.execCrcVerify bytes crc s
  | .crcRead => Sys2Proof.Machine.execCrcRead s
  | .rtuBuild unitId pdu => Sys2Proof.Machine.execRtuBuild unitId pdu s
  | .rtuParse frame => Sys2Proof.Machine.execRtuParse frame s
  | .lnkPoll => Sys2Proof.Machine.execLnkPoll s
  | .lnkSend bytes => Sys2Proof.Machine.execLnkSend bytes s
  | .lnkRxbyte b => Sys2Proof.Machine.execLnkRxbyte b s
  | .tfaAppend chunk => Sys2Proof.Machine.execTfaAppend chunk s
  | .tfaIscomplete => Sys2Proof.Machine.execTfaIscomplete s
  | .tfaReset => Sys2Proof.Machine.execTfaReset s
  | .mbapParse frame => Sys2Proof.Machine.execMbapParse frame s
  | .mbapBuild transactionId unitId pduLength => Sys2Proof.Machine.execMbapBuild transactionId unitId pduLength s
  | .pduExtract frame pduLength => Sys2Proof.Machine.execPduExtract frame pduLength s
  | .pduWrap unitId pdu => Sys2Proof.Machine.execPduWrap unitId pdu s
  | .pduStrip body => Sys2Proof.Machine.execPduStrip body s
  | .pduTcpresp transactionId unitId pdu => Sys2Proof.Machine.execPduTcpresp transactionId unitId pdu s
  | .gwPoll => Sys2Proof.Machine.execGwPoll s
  | .gwStep => Sys2Proof.Machine.execGwStep s
  | .cfgSet idx value => Sys2Proof.Machine.execCfgSet idx value s
  | .sysReset => Sys2Proof.Machine.execSysReset s

end Sys2Proof.Machine
end

