-- ==== Sys2Proof/Machine/Step.lean ====
section
/-!
DEFINITION. One step of the machine: a GW.POLL in progress goes on; else the oldest command on the command port is taken,
decoded and run (R115, R121, R122); with no command there is nothing to do (R343; log 1).
-/

namespace Sys2Proof.Machine

/-- One step. -/
def step (s : State) : Host.Outcome State Fault Refusal :=
  if s.gwPolling then .next (gwPollRun s)
  else
    match s.cmdPort with
    | [] => .next s
    | command :: _ =>
      match decode command with
      | .error _ => .next s.takeCommand.refuseCommand
      | .ok i => exec i s.takeCommand

/-- The state with the command of an opcode-table word placed where the next step takes its command from. -/
def State.withFetchWord (s : State) (nbits w : Nat) : State := s.placeCommand (tableCommand nbits w)

end Sys2Proof.Machine
end

