-- ==== Sys2Proof/Safety.lean ====
section
/-!
DEFINITION. The invariants of R53, R46, R48 and R49, "Invariants every operation preserves and every rule may assume", and
the range of the parameters (R13). A state that meets them is safe. Then the spec's one premise on the environment, that NOW
does not go back (R18).
-/

namespace Sys2Proof.Machine

/-- The four buffers keep within their capacities (R53, R78). -/
abbrev State.BuffersFit (s : State) : Prop :=
  Memory.wf s.par.lnkCap s.lnkBuf = true ∧ Memory.wf Config.TCP_CAP s.tcpBuf = true ∧
    Memory.wf Config.TCP_CAP s.tcpTx = true ∧ ∀ t ∈ s.txn, Memory.wf Config.PDU_MAX t.pdu = true

/-- `GW_STATE = AwaitingRtuResponse` if and only if `TXN_VALID = 1` (R46, R53). -/
abbrev State.TxnMatchesState (s : State) : Prop := s.gwState = .awaiting ↔ s.txnValid = true

/-- `LNK_DIR = 0` between operations (R41, R53). -/
abbrev State.DriverReceives (s : State) : Prop := s.lnkDir = .receive

/-- The legal values of the configuration registers (R48, R49) and of the reset value of the second (R13). -/
abbrev State.ConfigLegal (s : State) : Prop :=
  s.cfgSilenceMs.toNat < 2147483648 ∧
    (0 < s.cfgRtuTimeoutMs.toNat ∧ s.cfgRtuTimeoutMs.toNat < 2147483648) ∧
    (0 < s.par.rtuTimeoutMsReset.toNat ∧ s.par.rtuTimeoutMsReset.toNat < 2147483648)

/-- A GW.POLL is in progress only while the sequencer waits (R280; log 10). -/
abbrev State.PollWaits (s : State) : Prop := s.gwPolling = true → s.gwState = .awaiting

/-- The invariant of the machine. -/
abbrev State.Inv (s : State) : Prop :=
  s.BuffersFit ∧ s.TxnMatchesState ∧ s.DriverReceives ∧ s.ConfigLegal ∧ s.PollWaits

/-! ## The premise on NOW (R18) -/

/-- The premise "NOW is monotone" (R18, D5, U17): the samples taken and placed are "non-decreasing modulo 2^32 from one sample
to the next by less than 2^31", which is `reached` from each to the next (R24). Samples that are not placed meet it by their
form (log 4). -/
abbrev Env.NowMonotone (e : Env) : Prop :=
  List.IsChain (fun earlier later => reached later earlier = true) (e.lastNow.toList ++ e.nowQ)

/-- How many milliseconds pass from `start` to the last of the given samples, wraps of NOW counted in (R24). -/
def timePassed (start : Millis) : List Millis → Nat
  | [] => 0
  | t :: q => (elapsed t start).toNat + timePassed t q

end Sys2Proof.Machine
end

