-- ==== Sys2Proof/Certificates/Slice0/Obligations.lean ====
section
/-!
DEFINITION. The statements for the provers. An answer stands at the end of `resPort`, in the bytes of R117 (log 11); a
command is taken from the front of `cmdPort` (log 1); the environment's answers are those of `env` (log 3). A statement that
gives a next state as an equation says with it that every register, buffer, port and event it does not name is unchanged.
-/

namespace Sys2Proof.Machine

/-! ## Vocabulary of the statements -/

/-- Operations one after the other. -/
def execAll : List Instr → State → Host.Outcome State Fault Refusal
  | [], s => .next s
  | i :: is, s =>
    match exec i s with
    | .next t => execAll is t
    | .fault r => .fault r
    | .refused r => .refused r

/-- The state after n steps of the sequencer, with nothing on the result port. -/
def gwAfter : Nat → State → State
  | 0, s => s
  | n + 1, s => gwAfter n (gwStepOp s).1

/-- The frame of a Modbus TCP message, byte for byte (R100). -/
def tcpFrame (tid : Half) (uid : Byte) (pdu : List Byte) : List Byte :=
  [hi8 tid, lo8 tid, 0x00, 0x00, hi8 (BitVec.ofNat 16 (pdu.length + 1)), lo8 (BitVec.ofNat 16 (pdu.length + 1)), uid] ++ pdu

/-- The frame of a Modbus RTU message, byte for byte (R105). -/
def rtuFrame (uid : Byte) (pdu : List Byte) : List Byte :=
  [uid] ++ pdu ++ [lo8 (crc16 (uid :: pdu)), hi8 (crc16 (uid :: pdu))]

/-- The four events of a transmission, in their order (R188). -/
def sendEvents (bytes : List Byte) : List Event :=
  [.serDir .transmit, .serWrite bytes, .serFlush, .serDir .receive]

/-- Every write of a trace stands between the switch to transmit and the flush, and the flush before the switch back (R83). -/
def bracketed : List Event → Bool
  | [] => true
  | .serDir .transmit :: .serWrite _ :: .serFlush :: .serDir .receive :: r => bracketed r
  | .tcpSend _ _ :: r => bracketed r
  | _ => false

/-- A Modbus TCP frame is legal (R101): protocol id 0, length field one more than the PDU's length, at most 253 PDU bytes. -/
def legalTcpFrame (f : List Byte) : Prop :=
  7 ≤ f.length ∧ f.length ≤ 260 ∧ be16 f 2 = 0 ∧ (be16 f 4).toNat = f.length - 6

/-- How a GW.POLL from s ends when its wait is over: Idle, nothing in flight, TCPBUF empty, one answer (R280). -/
def pollEnds (s : State) : Prop :=
  ∃ t answer, exec .gwPoll s = .next t ∧ t.gwPolling = false ∧ t.gwState = .idle ∧ t.txn = none ∧ t.tcpBuf = [] ∧
    t.resPort = s.resPort ++ [answer]

/-- A byte string with bit k of byte i flipped. -/
def flipBit (s : List Byte) (i k : Nat) : List Byte := s.set i (s.getD i 0 ^^^ (1#8 <<< k))

/-- The operations that may write CRC (R31): CRC.INIT, CRC.BYTE, CRC.COMPUTE, CRC.VERIFY, RTU.BUILD, RTU.PARSE, GW.STEP,
GW.POLL, SYS.RESET. -/
def writesCrc (i : Instr) : Bool := decide (i.opcode.toNat ∈ [0x00, 0x01, 0x02, 0x03, 0x08, 0x09, 0x1D, 0x1C, 0x1F])

/-- The operations that may write GW_STATE and the transaction (R46, R36): GW.STEP, GW.POLL, SYS.RESET. -/
def writesSequencer (i : Instr) : Bool := decide (i.opcode.toNat ∈ [0x1D, 0x1C, 0x1F])

/-- The operations that may write a configuration register (R47): CFG.SET, SYS.RESET. -/
def writesConfig (i : Instr) : Bool := decide (i.opcode.toNat ∈ [0x1E, 0x1F])

/-- The operations that may read the environment (R61, R77, R182): LNK.RXBYTE, LNK.POLL, GW.STEP, GW.POLL. -/
def readsEnvironment (i : Instr) : Bool := decide (i.opcode.toNat ∈ [0x0E, 0x0C, 0x1D, 0x1C])

/-- The operations that may write LNK_LAST_RX (R33): LNK.RXBYTE, LNK.POLL, GW.STEP, GW.POLL, SYS.RESET. -/
def writesLastRx (i : Instr) : Bool := decide (i.opcode.toNat ∈ [0x0E, 0x0C, 0x1D, 0x1C, 0x1F])

/-- The operations that may write LNK_DIR (R41): LNK.SEND, GW.STEP, GW.POLL, SYS.RESET. -/
def writesDirection (i : Instr) : Bool := decide (i.opcode.toNat ∈ [0x0D, 0x1D, 0x1C, 0x1F])

/-- The operations that may emit an event (R188, R267): LNK.SEND, GW.STEP, GW.POLL. -/
def emitsEvents (i : Instr) : Bool := decide (i.opcode.toNat ∈ [0x0D, 0x1D, 0x1C])

/-- The operations that may change LNKBUF or LNK_LEN (R76, R32): LNK.RXBYTE, LNK.POLL, LNK.SEND, GW.STEP, GW.POLL,
SYS.RESET. -/
def reachesLnkBuf (i : Instr) : Bool := decide (i.opcode.toNat ∈ [0x0E, 0x0C, 0x0D, 0x1D, 0x1C, 0x1F])

/-- The operations that may change TCPBUF or TFA_LEN (R76, R34): TFA.APPEND, TFA.RESET, GW.STEP, GW.POLL, SYS.RESET. -/
def reachesTcpBuf (i : Instr) : Bool := decide (i.opcode.toNat ∈ [0x10, 0x12, 0x1D, 0x1C, 0x1F])

/-- The operations that may change TCPTX or TCPTX_LEN (R76, R35): MBAP.BUILD, PDU.TCPRESP, GW.STEP, GW.POLL, SYS.RESET.
-/
def reachesTcpTx (i : Instr) : Bool := decide (i.opcode.toNat ∈ [0x15, 0x1B, 0x1D, 0x1C, 0x1F])

end Sys2Proof.Machine

open Sys2Proof Sys2Proof.Machine

/-! ## Commands -/

/-- Commands printed in the spec's vectors decode to the operations they stand for (R115, R116, R120). -/
def Obligations.SpecCommandsDecode : Prop :=
  decode [0x00] = .ok .crcInit ∧
  decode [0x01, 0x0A] = .ok (.crcByte 0x0A) ∧
  decode [0x03, 0x00, 0x06, 0x01, 0x03, 0x00, 0x00, 0x00, 0x0A, 0xCD, 0xC5] =
    .ok (.crcVerify [0x01, 0x03, 0x00, 0x00, 0x00, 0x0A] 0xCDC5) ∧
  decode [0x08, 0x11, 0x00, 0x05, 0x03, 0x00, 0x6B, 0x00, 0x03] = .ok (.rtuBuild 0x11 [0x03, 0x00, 0x6B, 0x00, 0x03]) ∧
  decode [0x0E, 0x11] = .ok (.lnkRxbyte 0x11) ∧
  decode [0x10, 0x00, 0x07, 0x00, 0x01, 0x00, 0x00, 0x00, 0x06, 0x11] =
    .ok (.tfaAppend [0x00, 0x01, 0x00, 0x00, 0x00, 0x06, 0x11]) ∧
  decode [0x15, 0x00, 0x01, 0x11, 0x00, 0x08] = .ok (.mbapBuild 0x0001 0x11 8) ∧
  decode [0x1B, 0x00, 0x01, 0x11, 0x00, 0x08, 0x03, 0x06, 0xAE, 0x41, 0x56, 0x52, 0x43, 0x68] =
    .ok (.pduTcpresp 0x0001 0x11 [0x03, 0x06, 0xAE, 0x41, 0x56, 0x52, 0x43, 0x68]) ∧
  decode [0x1D] = .ok .gwStep ∧
  decode [0x1E, 0x01, 0x00, 0x00, 0x03, 0xE8] = .ok (.cfgSet 0x01 1000)

/-- Every well-formed operation is read back from its command with every operand as it was (R115, R116, R120). -/
def Obligations.DecodeOfEncode : Prop :=
  ∀ i : Instr, i.wf = true → decode (encode i) = .ok i

/-- The decoder accepts no other command: what it reads is well formed and its command is the one given (R120 to R123). -/
def Obligations.EncodeOfDecode : Prop :=
  ∀ (command : List Byte) (i : Instr), decode command = .ok i → i.wf = true ∧ encode i = command

/-- R122: a command shorter than its format, one with bytes left over and one whose length prefix exceeds the bytes that
follow are refused, and a refused command is answered with IllegalOp and changes nothing else. -/
def Obligations.MalformedCommandsRefused : Prop :=
  (∀ (i : Instr) (n : Nat), i.wf = true → 0 < n → n < (encode i).length →
    ∃ e, decode ((encode i).take n) = .error e) ∧
  (∀ (i : Instr) (extra : List Byte), i.wf = true → extra ≠ [] → ∃ e, decode (encode i ++ extra) = .error e) ∧
  (∀ (hi lo : Byte) (r : List Byte), r.length < hi.toNat * 256 + lo.toNat →
    ∀ op ∈ [0x02, 0x03, 0x09, 0x0D, 0x10, 0x14, 0x18, 0x1A], decode (op :: hi :: lo :: r) = .error .badLengthPrefix) ∧
  (∀ (s : State) (command : List Byte) (rest : List (List Byte)) (e : DecodeRefusal), s.gwPolling = false →
    s.cmdPort = command :: rest → decode command = .error e →
    step s = .next { s with cmdPort := rest, resPort := s.resPort ++ [[0x07]] })

/-- R121: a reserved OPSEL, or an operation byte with a bit of 7:5 set, is refused whatever follows it: status IllegalOp, no
state change, no event, and no operation has such a byte. -/
def Obligations.ReservedCodesRefused : Prop :=
  ∀ (op : Byte) (r : List Byte) (s : State) (rest : List (List Byte)),
    (op.toNat ∈ [0x05, 0x06, 0x07, 0x0A, 0x0B, 0x0F, 0x13, 0x16, 0x17] ∨ 32 ≤ op.toNat) →
    s.gwPolling = false → s.cmdPort = (op :: r) :: rest →
    (∀ i : Instr, i.opcode ≠ op) ∧ step s = .next { s with cmdPort := rest, resPort := s.resPort ++ [[0x07]] }

/-- A step runs the decoded operation: the oldest command is taken off the port, and the rest is exec (R45, R115). -/
def Obligations.StepRunsDecodedInstruction : Prop :=
  ∀ (s : State) (command : List Byte) (rest : List (List Byte)) (i : Instr), s.gwPolling = false →
    s.cmdPort = command :: rest → decode command = .ok i → step s = exec i { s with cmdPort := rest }

/-- The model's choices of log 1 and log 10: with no command a step changes nothing ("never ... start an operation of its
own accord", R343), and while a GW.POLL is in progress a step goes on with it and takes no command. -/
def Obligations.StepWithoutCommand : Prop :=
  (∀ s : State, s.gwPolling = false → s.cmdPort = [] → step s = .next s) ∧
  (∀ s : State, s.gwPolling = true → step s = exec .gwPoll s)

/-! ## Reset -/

/-- R55: the reset state, also the power-on state. -/
def Obligations.ResetRegisters : Prop :=
  State.reset.crc = 0xFFFF ∧ State.reset.lnkLen = 0 ∧ State.reset.lnkLastRx = 0 ∧ State.reset.lnkDir = .receive ∧
  State.reset.tfaLen = 0 ∧ State.reset.tcpTxLen = 0 ∧ State.reset.gwState = .idle ∧ State.reset.txnValid = false ∧
  State.reset.cfgSilenceMs = 5 ∧ State.reset.cfgRtuTimeoutMs = State.reset.par.rtuTimeoutMsReset

/-- R303: SYS.RESET from any state. No event, the parameters and the environment untouched; a second one changes nothing
more. (That a GW.POLL in progress ends is the model's, log 10.) -/
def Obligations.SysResetReachesReset : Prop :=
  encode .sysReset = [0x1F] ∧
  (∀ s : State, exec .sysReset s = .next { s with
    crc := 0xFFFF, lnkBuf := [], lnkLastRx := 0, lnkDir := .receive, tcpBuf := [], tcpTx := [], gwState := .idle,
    txn := none, cfgSilenceMs := 5, cfgRtuTimeoutMs := s.par.rtuTimeoutMsReset, gwPolling := false,
    resPort := s.resPort ++ [[0x00]] }) ∧
  (∀ s t : State, exec .sysReset s = .next t → exec .sysReset t = .next { t with resPort := t.resPort ++ [[0x00]] })

/-! ## The CRC unit -/

/-- R141: the bit step bit by bit, and the byte step as the XOR into the low half and eight bit steps. -/
def Obligations.CrcBitAndByteStep : Prop :=
  (∀ c : Half, (crcBit c).getLsbD 15 = c.getLsbD 0 ∧
    ∀ i < 15, (crcBit c).getLsbD i = (c.getLsbD (i + 1) ^^ (c.getLsbD 0 && (0xA001#16).getLsbD i))) ∧
  (∀ (c : Half) (b : Byte), crcStep c b = crcBit^[8] (c ^^^ BitVec.setWidth 16 b)) ∧
  (List.range 9).map (fun k => crcBit^[k] (0xFFFF#16 ^^^ BitVec.setWidth 16 0x01#8)) =
    [0xFFFE, 0x7FFF, 0x9FFE, 0x4FFF, 0x87FE, 0x43FF, 0x81FE, 0x40FF, 0x807E]

/-- R142: the checksum of a byte string. -/
def Obligations.CrcOfString : Prop :=
  crc16 [] = 0xFFFF ∧ ∀ (s : List Byte) (b : Byte), crc16 (s ++ [b]) = crcStep (crc16 s) b

/-- R143: the worked values, and the register after each byte of the source's vector. -/
def Obligations.CrcWorkedValues : Prop :=
  crc16 [0x01, 0x03, 0x00, 0x00, 0x00, 0x0A] = 0xCDC5 ∧
  [lo8 (crc16 [0x01, 0x03, 0x00, 0x00, 0x00, 0x0A]), hi8 (crc16 [0x01, 0x03, 0x00, 0x00, 0x00, 0x0A])] = [0xC5, 0xCD] ∧
  crc16 [0x01] = 0x807E ∧ crc16 [0x01, 0x03] = 0x2140 ∧ crc16 [0x01, 0x03, 0x00] = 0xF020 ∧
  crc16 [0x01, 0x03, 0x00, 0x00] = 0xD8F1 ∧ crc16 [0x01, 0x03, 0x00, 0x00, 0x00] = 0x8419 ∧
  crc16 [] = 0xFFFF ∧ crc16 [0x00] = 0x40BF ∧ crc16 [0xFF] = 0x00FF ∧
  crc16 [0x11, 0x03, 0x00, 0x6B, 0x00, 0x03] = 0x8776 ∧
  crc16 [0x11, 0x03, 0x06, 0xAE, 0x41, 0x56, 0x52, 0x43, 0x68] = 0xB349 ∧
  crc16 [0x31, 0x32, 0x33, 0x34, 0x35, 0x36, 0x37, 0x38, 0x39] = 0x4B37

/-- R144: CRC.INIT. -/
def Obligations.CrcInitSetsRegister : Prop :=
  encode .crcInit = [0x00] ∧
  (∀ s : State, exec .crcInit s = .next { s with crc := 0xFFFF, resPort := s.resPort ++ [[0x00]] }) ∧
  (∀ s t : State, exec .crcInit s = .next t → exec .crcInit t = .next { t with resPort := t.resPort ++ [[0x00]] })

/-- R145: CRC.BYTE, with its corner cases: a zero byte still shifts, and the operation is not idempotent. -/
def Obligations.CrcByteFeedsRegister : Prop :=
  (∀ b : Byte, encode (.crcByte b) = [0x01, b]) ∧
  (∀ (b : Byte) (s : State),
    exec (.crcByte b) s = .next { s with crc := crcStep s.crc b, resPort := s.resPort ++ [[0x00]] }) ∧
  crcStep 0xFFFF 0x00 = 0x40BF ∧ crcStep 0xFFFF 0x01 = 0x807E ∧
  crcStep (crcStep 0xFFFF 0x00) 0x00 ≠ crcStep 0xFFFF 0x00

/-- R146: CRC.COMPUTE. -/
def Obligations.CrcComputeAnswersChecksum : Prop :=
  (∀ bytes : List Byte, encode (.crcCompute bytes) = 0x02 :: encS bytes ∧
    ((Instr.crcCompute bytes).wf = true ↔ bytes.length ≤ 65535)) ∧
  (∀ (bytes : List Byte) (s : State), exec (.crcCompute bytes) s =
    .next { s with crc := crc16 bytes, resPort := s.resPort ++ [[0x00, hi8 (crc16 bytes), lo8 (crc16 bytes)]] }) ∧
  crc16 [] = 0xFFFF ∧ crc16 [0x01, 0x03, 0x00, 0x00, 0x00, 0x0A] = 0xCDC5

/-- R147: CRC.VERIFY; a mismatch is a result, not an error. -/
def Obligations.CrcVerifyComparesAllBits : Prop :=
  (∀ (bytes : List Byte) (crc : Half), encode (.crcVerify bytes crc) = 0x03 :: (encS bytes ++ [hi8 crc, lo8 crc])) ∧
  (∀ (bytes : List Byte) (crc : Half) (s : State), exec (.crcVerify bytes crc) s =
    .next { s with crc := crc16 bytes, resPort := s.resPort ++ [[0x00, if crc16 bytes = crc then 0x01 else 0x00]] }) ∧
  crc16 [0x01, 0x03, 0x00, 0x00, 0x00, 0x0A] = 0xCDC5 ∧ crc16 [0x01, 0x03, 0x00, 0x00, 0x00, 0x0A] ≠ 0xC5CD

/-- R148: CRC.READ. -/
def Obligations.CrcReadLowByteFirst : Prop :=
  encode .crcRead = [0x04] ∧
  (∀ s : State, exec .crcRead s = .next { s with resPort := s.resPort ++ [[0x00, lo8 s.crc, hi8 s.crc]] }) ∧
  lo8 0xCDC5 = 0xC5 ∧ hi8 0xCDC5 = 0xCD

/-- R126: CRC.COMPUTE is CRC.INIT and CRC.BYTE of each byte: the two end in states that are equal but for the result port,
where CRC.COMPUTE leaves one answer, with the checksum, and the others leave an OK each. The state is also given whole. -/
def Obligations.CrcStreamEqualsCompute : Prop :=
  ∀ (bytes : List Byte) (s : State),
    execAll (.crcInit :: bytes.map .crcByte) s =
      .next { s with crc := crc16 bytes, resPort := s.resPort ++ List.replicate (bytes.length + 1) [0x00] } ∧
    ∃ t u, exec (.crcCompute bytes) s = .next t ∧ execAll (.crcInit :: bytes.map .crcByte) s = .next u ∧
      u = { t with resPort := u.resPort } ∧
      t.resPort = s.resPort ++ [[0x00, hi8 u.crc, lo8 u.crc]]

/-- R150: verification accepts the computed checksum and refuses after any one-bit flip, in the bytes or in the checksum,
for strings of any length. -/
def Obligations.CrcDetectsSingleBitFlips : Prop :=
  ∀ (bytes : List Byte) (s : State),
    (∃ t, exec (.crcVerify bytes (crc16 bytes)) s = .next t ∧ t.resPort = s.resPort ++ [[0x00, 0x01]]) ∧
    (∀ i k, i < bytes.length → k < 8 →
      ∃ t, exec (.crcVerify (flipBit bytes i k) (crc16 bytes)) s = .next t ∧ t.resPort = s.resPort ++ [[0x00, 0x00]]) ∧
    (∀ k < 16, ∃ t, exec (.crcVerify bytes (crc16 bytes ^^^ (1#16 <<< k))) s = .next t ∧
      t.resPort = s.resPort ++ [[0x00, 0x00]])

/-- R151: the residue over a string and its two checksum bytes, low byte first, is zero. -/
def Obligations.CrcResidueIsZero : Prop :=
  ∀ bytes : List Byte, crc16 (bytes ++ [lo8 (crc16 bytes), hi8 (crc16 bytes)]) = 0x0000

/-! ## The RTU frame codec -/

/-- R161: RTU.BUILD. -/
def Obligations.RtuBuildFrame : Prop :=
  (∀ (uid : Byte) (pdu : List Byte), encode (.rtuBuild uid pdu) = 0x08 :: uid :: encS pdu) ∧
  (∀ (uid : Byte) (pdu : List Byte) (s : State), exec (.rtuBuild uid pdu) s =
    if 253 < pdu.length then .next { s with resPort := s.resPort ++ [[0x05]] }
    else .next { s with crc := crc16 (uid :: pdu), resPort := s.resPort ++ [0x00 :: encS (rtuFrame uid pdu)] }) ∧
  rtuFrame 0x11 [0x03, 0x00, 0x6B, 0x00, 0x03] = [0x11, 0x03, 0x00, 0x6B, 0x00, 0x03, 0x76, 0x87] ∧
  (∀ (uid : Byte) (pdu : List Byte), (rtuFrame uid pdu).length = pdu.length + 3)

/-- R162: RTU.PARSE, its checks in their order: nothing is written when a length check fails, CRC is written whether it
matches or not, and an error gives no unit id and no PDU. -/
def Obligations.RtuParseFrame : Prop :=
  (∀ frame : List Byte, encode (.rtuParse frame) = 0x09 :: encS frame) ∧
  (∀ (frame : List Byte) (s : State), exec (.rtuParse frame) s =
    if frame.length < 4 then .next { s with resPort := s.resPort ++ [[0x06]] }
    else if 256 < frame.length then .next { s with resPort := s.resPort ++ [[0x04]] }
    else if crc16 (frame.take (frame.length - 2)) ≠
        BitVec.ofNat 16 ((frame.getD (frame.length - 2) 0).toNat + 256 * (frame.getD (frame.length - 1) 0).toNat) then
      .next { s with crc := crc16 (frame.take (frame.length - 2)), resPort := s.resPort ++ [[0x03]] }
    else .next { s with
      crc := crc16 (frame.take (frame.length - 2))
      resPort := s.resPort ++ [0x00 :: frame.getD 0 0 :: encS ((frame.take (frame.length - 2)).drop 1)] })

/-- R163: RTU.PARSE of what RTU.BUILD gives returns the unit id and the PDU, for every PDU of 1 to 253 bytes; a frame built
of the empty PDU is refused as too short. -/
def Obligations.RtuRoundTrip : Prop :=
  ∀ (uid : Byte) (pdu : List Byte) (s : State), pdu.length ≤ 253 →
    ∃ frame t u, exec (.rtuBuild uid pdu) s = .next t ∧ t.resPort = s.resPort ++ [0x00 :: encS frame] ∧
      exec (.rtuParse frame) t = .next u ∧
      u.resPort = t.resPort ++ [if pdu.length = 0 then [0x06] else 0x00 :: uid :: encS pdu]

/-! ## The link framer -/

/-- R182: LNK.RXBYTE, with NOW sampled once for the operation; a byte that does not fit is discarded with the buffer and
LNK_LAST_RX is not written then. That NOW is sampled on that path too is the model's inference (log 15, DEDUCED). -/
def Obligations.LnkRxbyteAppendsOrDiscards : Prop :=
  (∀ b : Byte, encode (.lnkRxbyte b) = [0x0E, b]) ∧
  (∀ (b : Byte) (s : State), exec (.lnkRxbyte b) s =
    if s.lnkLen = s.par.lnkCap then
      .next { s with lnkBuf := [], env := s.env.afterNow, resPort := s.resPort ++ [[0x04]] }
    else .next { s with
      lnkBuf := s.lnkBuf ++ [b], lnkLastRx := s.env.now, env := s.env.afterNow, resPort := s.resPort ++ [[0x00]] })

/-- R184: LNK.POLL: the bytes read are fed in their order to the step of LNK.RXBYTE with the one NOW of the poll, their
statuses ignored; then a non-empty buffer silent for longer than CFG_SILENCE_MS is delivered and emptied. -/
def Obligations.LnkPollReadsThenTestsSilence : Prop :=
  encode .lnkPoll = [0x0C] ∧
  ∀ s g : State,
    g = s.env.afterNow.serRead.foldl
      (fun u b => if u.lnkLen = u.par.lnkCap then { u with lnkBuf := [] }
        else { u with lnkBuf := u.lnkBuf ++ [b], lnkLastRx := s.env.now })
      { s with env := s.env.afterNow.afterSerRead } →
    exec .lnkPoll s =
      if 0 < g.lnkLen ∧ s.cfgSilenceMs.toNat < (s.env.now - g.lnkLastRx).toNat then
        .next { g with lnkBuf := [], resPort := s.resPort ++ [0x00 :: 0x01 :: encS g.lnkBuf] }
      else .next { g with resPort := s.resPort ++ [[0x00, 0x00]] }

/-- R184, R192, R323: a poll that has read a byte delivers no frame, whatever the threshold; bytes that fit are all appended
in the order received and stamped with the poll's NOW; of bytes that overflow, the buffer and the byte that does not fit are
lost without a status, and the bytes after it start a new accumulation. -/
def Obligations.LnkPollCollectsOrLosesSilently : Prop :=
  ∀ (s : State) (rx : List Byte), s.env.afterNow.serRead = rx → rx ≠ [] →
    (∃ t, exec .lnkPoll s = .next t ∧ t.resPort = s.resPort ++ [[0x00, 0x00]]) ∧
    (s.lnkLen + rx.length ≤ s.par.lnkCap →
      exec .lnkPoll s = .next { s with
        lnkBuf := s.lnkBuf ++ rx, lnkLastRx := s.env.now, env := s.env.afterNow.afterSerRead
        resPort := s.resPort ++ [[0x00, 0x00]] }) ∧
    (∀ k, s.lnkLen ≤ s.par.lnkCap → s.lnkLen + rx.length = s.par.lnkCap + 1 + k → k ≤ s.par.lnkCap →
      ∃ t, exec .lnkPoll s = .next t ∧ t.lnkBuf = rx.drop (rx.length - k) ∧ t.resPort = s.resPort ++ [[0x00, 0x00]])

/-- R188, R190: LNK.SEND. The four events stand in this order with nothing between them, the driver is back in receive, and
LNKBUF is emptied only under the parameter. -/
def Obligations.LnkSendBracketsWrite : Prop :=
  (∀ bytes : List Byte, encode (.lnkSend bytes) = 0x0D :: encS bytes) ∧
  (∀ (bytes : List Byte) (s : State), exec (.lnkSend bytes) s =
    if 256 < bytes.length then .next { s with resPort := s.resPort ++ [[0x04]] }
    else .next { s with
      lnkBuf := if s.par.lnkClearOnSend then [] else s.lnkBuf
      lnkDir := .receive
      trace := s.trace ++ [.serDir .transmit, .serWrite bytes, .serFlush, .serDir .receive]
      resPort := s.resPort ++ [[0x00]] })

/-! ## The TCP frame assembler -/

/-- R211: TFA.APPEND takes as many bytes as there is room for and reports the count. -/
def Obligations.TfaAppendTakesWhatFits : Prop :=
  (∀ chunk : List Byte, encode (.tfaAppend chunk) = 0x10 :: encS chunk) ∧
  (∀ (chunk : List Byte) (s : State) (k : Nat), k = min chunk.length (260 - s.tfaLen) →
    exec (.tfaAppend chunk) s = .next { s with
      tcpBuf := s.tcpBuf ++ chunk.take k
      resPort := s.resPort ++ [[0x00, hi8 (BitVec.ofNat 16 k), lo8 (BitVec.ofNat 16 k)]] })

/-- R212: TFA.ISCOMPLETE, with the sum over the naturals. -/
def Obligations.TfaIscompleteAnswer : Prop :=
  encode .tfaIscomplete = [0x11] ∧
  ∀ s : State, exec .tfaIscomplete s = .next { s with
    resPort := s.resPort ++
      [[0x00, if 7 ≤ s.tfaLen ∧ 6 + ((s.tcpBuf.getD 4 0).toNat * 256 + (s.tcpBuf.getD 5 0).toNat) ≤ s.tfaLen
        then 0x01 else 0x00]] }

/-- R213: TFA.RESET clears the whole buffer, and a second one changes nothing more. -/
def Obligations.TfaResetClears : Prop :=
  encode .tfaReset = [0x12] ∧
  (∀ s : State, exec .tfaReset s = .next { s with tcpBuf := [], resPort := s.resPort ++ [[0x00]] }) ∧
  (∀ s t : State, exec .tfaReset s = .next t → exec .tfaReset t = .next { t with resPort := t.resPort ++ [[0x00]] })

/-- R215, R217: fed one frame with a length field of 1 to 254 and then anything, the assembler reports incomplete below
6 + length bytes and complete from there on; a full buffer is incomplete exactly when the length field is 255 or more. -/
def Obligations.TfaCompletenessByCount : Prop :=
  (∀ (tid : Half) (uid : Byte) (pdu trailing : List Byte) (n : Nat), pdu.length ≤ 253 →
    n ≤ (tcpFrame tid uid pdu ++ trailing).length →
    (frameComplete ((tcpFrame tid uid pdu ++ trailing).take n) = true ↔ 6 + (pdu.length + 1) ≤ n)) ∧
  (∀ m : Memory, m.length = 260 → (tfaOverflow m = true ↔ 255 ≤ (be16 m 4).toNat))

/-! ## The MBAP header codec -/

/-- R231: MBAP.PARSE reads the first seven bytes of its operand and writes no state. -/
def Obligations.MbapParseHeader : Prop :=
  (∀ frame : List Byte, encode (.mbapParse frame) = 0x14 :: encS frame) ∧
  (∀ (frame : List Byte) (s : State), frame.length < 7 →
    exec (.mbapParse frame) s = .next { s with resPort := s.resPort ++ [[0x01]] }) ∧
  (∀ (t1 t0 p1 p0 l1 l0 u : Byte) (r : List Byte) (s : State),
    exec (.mbapParse (t1 :: t0 :: p1 :: p0 :: l1 :: l0 :: u :: r)) s =
      if p1 ≠ 0 ∨ p0 ≠ 0 ∨ (l1 = 0 ∧ l0 = 0) then .next { s with resPort := s.resPort ++ [[0x01]] }
      else .next { s with
        resPort := s.resPort ++
          [[0x00, t1, t0, u, hi8 (BitVec.ofNat 16 (l1.toNat * 256 + l0.toNat - 1)),
            lo8 (BitVec.ofNat 16 (l1.toNat * 256 + l0.toNat - 1))]] })

/-- R232: MBAP.BUILD writes the header to TCPTX and answers it; an oversized length writes nothing. -/
def Obligations.MbapBuildHeader : Prop :=
  (∀ (tid : Half) (uid : Byte) (l : Half),
    encode (.mbapBuild tid uid l) = [0x15, hi8 tid, lo8 tid, uid, hi8 l, lo8 l]) ∧
  (∀ (tid : Half) (uid : Byte) (l : Half) (s : State) (h : List Byte),
    h = [hi8 tid, lo8 tid, 0x00, 0x00, 0x00, BitVec.ofNat 8 (l.toNat + 1), uid] →
    exec (.mbapBuild tid uid l) s =
      if 253 < l.toNat then .next { s with resPort := s.resPort ++ [[0x05]] }
      else .next { s with tcpTx := h, resPort := s.resPort ++ [[0x00, 0x00, 0x07] ++ h] })

/-- R233: MBAP.PARSE of what MBAP.BUILD gives recovers transaction id, unit id and PDU length, over their full ranges. -/
def Obligations.MbapRoundTrip : Prop :=
  ∀ (tid : Half) (uid : Byte) (l : Half) (s : State), l.toNat ≤ 253 →
    ∃ h t u, exec (.mbapBuild tid uid l) s = .next t ∧ t.resPort = s.resPort ++ [0x00 :: encS h] ∧
      exec (.mbapParse h) t = .next u ∧ u.resPort = t.resPort ++ [[0x00, hi8 tid, lo8 tid, uid, hi8 l, lo8 l]]

/-! ## The PDU extractor and builder -/

/-- R251: PDU.EXTRACT slices by the length given; trailing bytes are left out; no state is written. -/
def Obligations.PduExtractSlice : Prop :=
  (∀ (frame : List Byte) (l : Half), encode (.pduExtract frame l) = 0x18 :: (encS frame ++ [hi8 l, lo8 l])) ∧
  (∀ (frame : List Byte) (l : Half) (s : State), exec (.pduExtract frame l) s =
    if 253 < l.toNat then .next { s with resPort := s.resPort ++ [[0x05]] }
    else if frame.length < 7 + l.toNat then .next { s with resPort := s.resPort ++ [[0x06]] }
    else .next { s with resPort := s.resPort ++ [0x00 :: encS ((frame.drop 7).take l.toNat)] })

/-- R252: PDU.WRAP puts the unit id in front; no state is written. -/
def Obligations.PduWrapUnitId : Prop :=
  (∀ (uid : Byte) (pdu : List Byte), encode (.pduWrap uid pdu) = 0x19 :: uid :: encS pdu) ∧
  (∀ (uid : Byte) (pdu : List Byte) (s : State), exec (.pduWrap uid pdu) s =
    if 253 < pdu.length then .next { s with resPort := s.resPort ++ [[0x05]] }
    else .next { s with resPort := s.resPort ++ [0x00 :: encS (uid :: pdu)] })

/-- R253: PDU.STRIP takes the unit id off; no state is written. -/
def Obligations.PduStripUnitId : Prop :=
  (∀ body : List Byte, encode (.pduStrip body) = 0x1A :: encS body) ∧
  (∀ s : State, exec (.pduStrip []) s = .next { s with resPort := s.resPort ++ [[0x06]] }) ∧
  (∀ (uid : Byte) (pdu : List Byte) (s : State), exec (.pduStrip (uid :: pdu)) s =
    if 254 < pdu.length + 1 then .next { s with resPort := s.resPort ++ [[0x05]] }
    else .next { s with resPort := s.resPort ++ [0x00 :: uid :: encS pdu] })

/-- R254: PDU.TCPRESP assembles the response in TCPTX and answers it; an oversized PDU writes nothing. -/
def Obligations.PduTcprespFrame : Prop :=
  (∀ (tid : Half) (uid : Byte) (pdu : List Byte),
    encode (.pduTcpresp tid uid pdu) = 0x1B :: hi8 tid :: lo8 tid :: uid :: encS pdu) ∧
  (∀ (tid : Half) (uid : Byte) (pdu : List Byte) (s : State), exec (.pduTcpresp tid uid pdu) s =
    if 253 < pdu.length then .next { s with resPort := s.resPort ++ [[0x05]] }
    else .next { s with
      tcpTx := tcpFrame tid uid pdu, resPort := s.resPort ++ [0x00 :: encS (tcpFrame tid uid pdu)] })

/-- R255: the composition laws: header and PDU come back from a built response, with anything behind it, and PDU.STRIP undoes
PDU.WRAP. -/
def Obligations.PduCompositionLaws : Prop :=
  ∀ (tid : Half) (uid : Byte) (pdu trailing : List Byte) (s : State) (l : Half), pdu.length ≤ 253 →
    l = BitVec.ofNat 16 pdu.length →
    exec (.mbapParse (tcpFrame tid uid pdu ++ trailing)) s =
      .next { s with resPort := s.resPort ++ [[0x00, hi8 tid, lo8 tid, uid, hi8 l, lo8 l]] } ∧
    exec (.pduExtract (tcpFrame tid uid pdu ++ trailing) l) s =
      .next { s with resPort := s.resPort ++ [0x00 :: encS pdu] } ∧
    (∃ t, exec (.pduWrap uid pdu) s = .next t ∧ t.resPort = s.resPort ++ [0x00 :: encS (uid :: pdu)] ∧
      exec (.pduStrip (uid :: pdu)) s = .next { s with resPort := s.resPort ++ [0x00 :: uid :: encS pdu] })

/-! ## The gateway sequencer -/

/-- R268: an Idle step without a connection does nothing further, not even a completeness test. -/
def Obligations.GwStepNoConnection : Prop :=
  encode .gwStep = [0x1D] ∧
  ∀ s : State, s.gwState = .idle → s.env.tcpAccept = none →
    exec .gwStep s = .next { s with env := s.env.afterTcpAccept, resPort := s.resPort ++ [[0x00, 0x00]] }

/-- R268, R269: an Idle step that leaves the frame incomplete keeps the bytes and waits, or, when the buffer is full, drops
them with FrameOverflow. -/
def Obligations.GwStepIncompleteOrOverflow : Prop :=
  ∀ (s : State) (conn : Conn) (buf : List Byte), s.gwState = .idle → s.env.tcpAccept = some conn →
    buf = s.tcpBuf ++ s.env.afterTcpAccept.tcpRead (260 - s.tfaLen) →
    (buf.length < 7 ∨ buf.length < 6 + (be16 buf 4).toNat) →
    exec .gwStep s =
      if buf.length = 260 then
        .next { s with tcpBuf := [], env := s.env.afterTcpAccept.afterTcpRead, resPort := s.resPort ++ [[0x04]] }
      else .next { s with
        tcpBuf := buf, env := s.env.afterTcpAccept.afterTcpRead, resPort := s.resPort ++ [[0x00, 0x01]] }

/-- R270: a complete frame with a bad header is dropped: the assembler is reset, nothing is sent, the sequencer stays
Idle. -/
def Obligations.GwStepInvalidHeader : Prop :=
  ∀ (s : State) (conn : Conn) (buf : List Byte), s.gwState = .idle → s.env.tcpAccept = some conn →
    buf = s.tcpBuf ++ s.env.afterTcpAccept.tcpRead (260 - s.tfaLen) →
    7 ≤ buf.length → 6 + (be16 buf 4).toNat ≤ buf.length → (be16 buf 2 ≠ 0 ∨ be16 buf 4 = 0) →
    exec .gwStep s = .next { s with
      tcpBuf := [], env := s.env.afterTcpAccept.afterTcpRead, resPort := s.resPort ++ [[0x01]] }

/-- R272: a complete frame with a valid header is forwarded: the RTU frame of its unit id and PDU is sent, the transaction
is created with the deadline counted from NOW after the send, and the request stays in TCPBUF. -/
def Obligations.GwStepForwards : Prop :=
  ∀ (s : State) (conn : Conn) (buf pdu : List Byte) (uid : Byte), s.gwState = .idle → s.env.tcpAccept = some conn →
    s.tfaLen ≤ 260 → buf = s.tcpBuf ++ s.env.afterTcpAccept.tcpRead (260 - s.tfaLen) →
    7 ≤ buf.length → 6 + (be16 buf 4).toNat ≤ buf.length → be16 buf 2 = 0 → be16 buf 4 ≠ 0 →
    uid = buf.getD 6 0 → pdu = (buf.drop 7).take ((be16 buf 4).toNat - 1) →
    exec .gwStep s = .next { s with
      crc := crc16 (uid :: pdu)
      lnkBuf := if s.par.lnkClearOnSend then [] else s.lnkBuf
      lnkDir := .receive
      tcpBuf := buf
      gwState := .awaiting
      txn := some {
        tid := be16 buf 0, uid := uid, pdu := pdu, conn := conn
        deadline := s.env.afterTcpAccept.afterTcpRead.now + s.cfgRtuTimeoutMs }
      trace := s.trace ++ sendEvents (rtuFrame uid pdu)
      env := s.env.afterTcpAccept.afterTcpRead.afterNow
      resPort := s.resPort ++ [[0x00, 0x02]] }

/-- R274, R277: an Awaiting step without a frame waits on before the deadline, and from the deadline on drops the request:
assembler reset, transaction destroyed, Idle, RtuTimeout, the link framer as the poll left it. -/
def Obligations.GwStepWaitsOrTimesOut : Prop :=
  ∀ (s s1 : State) (x : Txn), s.gwState = .awaiting → s.txn = some x → lnkPollOp s = (s1, none) →
    exec .gwStep s =
      if (s.env.now - x.deadline).toNat < 2147483648 then
        .next { s1 with tcpBuf := [], txn := none, gwState := .idle, resPort := s.resPort ++ [[0x02]] }
      else .next { s1 with resPort := s.resPort ++ [[0x00, 0x03]] }

/-- R275, R278: a delivered frame that parses is answered under the request's transaction id with the reply's unit id and
PDU, whether the deadline has been reached or not. -/
def Obligations.GwStepResponds : Prop :=
  ∀ (s s1 : State) (x : Txn) (uid2 : Byte) (pdu2 : List Byte), s.gwState = .awaiting → s.txn = some x →
    1 ≤ pdu2.length → pdu2.length ≤ 253 → lnkPollOp s = (s1, some (rtuFrame uid2 pdu2)) →
    exec .gwStep s = .next { s1 with
      crc := crc16 (uid2 :: pdu2)
      tcpTx := tcpFrame x.tid uid2 pdu2
      tcpBuf := []
      txn := none
      gwState := .idle
      trace := s.trace ++ [.tcpSend x.conn (tcpFrame x.tid uid2 pdu2)]
      resPort := s.resPort ++ [[0x00, 0x04]] }

/-- R276, R278: a delivered frame that does not parse ends the cycle with its error and no event. -/
def Obligations.GwStepDropsBadReply : Prop :=
  ∀ (s s1 : State) (f : List Byte), s.gwState = .awaiting → lnkPollOp s = (s1, some f) →
    (f.length < 4 → exec .gwStep s = .next { s1 with
      tcpBuf := [], txn := none, gwState := .idle, resPort := s.resPort ++ [[0x06]] }) ∧
    (256 < f.length → exec .gwStep s = .next { s1 with
      tcpBuf := [], txn := none, gwState := .idle, resPort := s.resPort ++ [[0x04]] }) ∧
    (4 ≤ f.length → f.length ≤ 256 → crc16 (f.take (f.length - 2)) ≠ le16 f (f.length - 2) →
      exec .gwStep s = .next { s1 with
        crc := crc16 (f.take (f.length - 2)), tcpBuf := [], txn := none, gwState := .idle
        resPort := s.resPort ++ [[0x03]] })

/-- R271, R273: in every state that meets the invariant no step of the sequencer ends in PduTooLarge: the oversized request
is caught earlier. -/
def Obligations.GwStepNeverPduTooLarge : Prop :=
  ∀ s t : State, s.Inv → exec .gwStep s = .next t → t.resPort ≠ s.resPort ++ [[0x05]]

/-- R281, R274: while a transaction is outstanding no step of the sequencer reads the TCP collaborator, and a step that ends
in an error leaves the sequencer Idle with the assembler empty and no transaction (R321, R334). -/
def Obligations.GwOneTransactionAtATime : Prop :=
  (∀ s t : State, s.gwState = .awaiting → exec .gwStep s = .next t →
    t.env.acceptQ = s.env.acceptQ ∧ t.env.readQ = s.env.readQ) ∧
  (∀ (s t : State) (e : Byte), s.Inv → exec .gwStep s = .next t → t.resPort = s.resPort ++ [[e]] →
    t.gwState = .idle ∧ t.tcpBuf = [] ∧ t.txn = none)

/-- R280: a GW.POLL whose first step leaves the sequencer Idle performs exactly one step and answers with its result. -/
def Obligations.GwPollOneStep : Prop :=
  encode .gwPoll = [0x1C] ∧
  ∀ s t : State, s.gwPolling = false → exec .gwStep s = .next t → t.gwState = .idle → exec .gwPoll s = .next t

/-- R280: GW.POLL is GW.STEP repeated until Idle: there is a number of steps n, at least one, with the sequencer awaiting
after every step before the n-th; either it is Idle after the n-th and the answer is that step's, never Forwarded or
Waiting, or it still awaits and the operation is in progress with no answer (the model's cut, log 10). -/
def Obligations.GwPollRepeatsStep : Prop :=
  ∀ s : State, ∃ n t, 0 < n ∧ exec .gwPoll s = .next t ∧
    (∀ k, 0 < k → k < n → (gwAfter k s).gwState = .awaiting) ∧
    (((gwAfter n s).gwState = .idle ∧ ∃ answer, exec .gwStep (gwAfter (n - 1) s) =
          .next { gwAfter n s with resPort := (gwAfter n s).resPort ++ [answer] } ∧
        answer ≠ [0x00, 0x02] ∧ answer ≠ [0x00, 0x03] ∧
        t = { gwAfter n s with gwPolling := false, resPort := s.resPort ++ [answer] }) ∨
     ((gwAfter n s).gwState = .awaiting ∧ t = { gwAfter n s with gwPolling := true, resPort := s.resPort }))

/-- R280, R84: the wait is bounded by the deadline: when one of the placed answers of NOW (log 3) reaches it, GW.POLL ends,
Idle, with one answer. And under the premise that NOW is monotone (R18; log 4) it is enough that as much time passes over the
placed answers, of which there is one, as is left from the last sample to the deadline: no sample jumps over it. -/
def Obligations.GwPollEndsByDeadline : Prop :=
  ∀ (s : State) (x : Txn), s.gwState = .awaiting → s.txn = some x →
    ((∃ now ∈ s.env.nowQ, reached now x.deadline = true) → pollEnds s) ∧
    (∀ last : Millis, s.env.NowMonotone → s.env.lastNow = some last → s.env.nowQ ≠ [] →
      (elapsed x.deadline last).toNat ≤ timePassed last s.env.nowQ → pollEnds s)

/-- R283, R275: the whole cycle, for every request and every reply. From Idle with empty buffers, a request of transaction
id tid and unit id uid, the reply coming whole before the deadline and followed by a silence longer than the threshold:
one GW.POLL puts the request's PDU on the RTU line, and the reply's PDU, under tid, on the connection; these five events
and no other. -/
def Obligations.GatewayRelaysEveryTransaction : Prop :=
  ∀ (s : State) (conn : Conn) (tid : Half) (uid uid2 : Byte) (pdu pdu2 : List Byte) (n0 n1 n2 : Millis)
    (nq : List Millis) (rq tq : List (List Byte)) (aq : List (Option Conn)),
    s.gwState = .idle → s.tcpBuf = [] → s.lnkBuf = [] → pdu.length ≤ 253 → 1 ≤ pdu2.length → pdu2.length ≤ 253 →
    s.env.acceptQ = some conn :: aq → s.env.readQ = tcpFrame tid uid pdu :: tq →
    s.env.nowQ = n0 :: n1 :: n2 :: nq → s.env.rxQ = rtuFrame uid2 pdu2 :: [] :: rq →
    reached n1 (n0 + s.cfgRtuTimeoutMs) = false → s.cfgSilenceMs.toNat < (n2 - n1).toNat →
    exec .gwPoll s = .next { s with
      crc := crc16 (uid2 :: pdu2)
      lnkLastRx := n1
      lnkDir := .receive
      tcpTx := tcpFrame tid uid2 pdu2
      txn := none
      trace := s.trace ++ (sendEvents (rtuFrame uid pdu) ++ [.tcpSend conn (tcpFrame tid uid2 pdu2)])
      gwPolling := false
      env := { s.env with nowQ := nq, rxQ := rq, acceptQ := aq, readQ := tq, lastNow := some n2 }
      resPort := s.resPort ++ [[0x00, 0x04]] }

/-! ## System operations -/

/-- R301: CFG.SET, index before value; the deadline of a transaction in flight does not move. -/
def Obligations.CfgSetWritesOneRegister : Prop :=
  (∀ (idx : Byte) (value : Millis), encode (.cfgSet idx value) = 0x1E :: idx :: encW value) ∧
  (∀ (value : Millis) (s : State), exec (.cfgSet 0x00 value) s =
    if 2147483647 < value.toNat then .next { s with resPort := s.resPort ++ [[0x07]] }
    else .next { s with cfgSilenceMs := value, resPort := s.resPort ++ [[0x00]] }) ∧
  (∀ (value : Millis) (s : State), exec (.cfgSet 0x01 value) s =
    if value.toNat = 0 ∨ 2147483647 < value.toNat then .next { s with resPort := s.resPort ++ [[0x07]] }
    else .next { s with cfgRtuTimeoutMs := value, resPort := s.resPort ++ [[0x00]] }) ∧
  (∀ (idx : Byte) (value : Millis) (s : State), idx ≠ 0x00 → idx ≠ 0x01 →
    exec (.cfgSet idx value) s = .next { s with resPort := s.resPort ++ [[0x07]] })

/-! ## The whole machine -/

/-- R53, R46: every step keeps the invariant: the four buffers within their capacities, a transaction exactly when the
sequencer awaits, the driver in receive between operations (the flush returns: log 6), the configuration in its legal range;
and, the model's own clause, a GW.POLL in progress only while the sequencer awaits (log 10). Likewise the premise on NOW
(R18; log 4): under it each sample is not before the one before, and every step keeps it. -/
def Obligations.StepKeepsInvariant : Prop :=
  (∀ s t : State, s.Inv → step s = .next t → t.Inv) ∧
  (∀ (e : Env) (last : Millis), e.NowMonotone → e.lastNow = some last →
    reached e.now last = true ∧ e.afterNow.lastNow = some e.now ∧ e.afterNow.NowMonotone) ∧
  (∀ s t : State, s.env.NowMonotone → step s = .next t → t.env.NowMonotone)

/-- R53: the reset state meets the invariant, whatever the open parameter of R13 is (log 7); its last clause holds there by
the model's choice that no GW.POLL is in progress at reset (log 10). No sample of NOW has been taken or placed there (logs 3,
4), so it meets the premise on NOW. -/
def Obligations.ResetMeetsInvariant : Prop := State.reset.Inv ∧ State.reset.env.NowMonotone

/-- R31, R33, R36, R41, R42, R46, R47, R77, R188: a register, the environment and the trace are changed by no operation but
those the spec names; the parameters and the command port by none; and, of the model's own, no operation but those of the
sequencer changes whether a GW.POLL is in progress (log 10). -/
def Obligations.OnlyNamedOperationsWrite : Prop :=
  ∀ (i : Instr) (s t : State), exec i s = .next t →
    (writesCrc i = false → t.crc = s.crc) ∧
    (writesLastRx i = false → t.lnkLastRx = s.lnkLastRx) ∧
    (writesDirection i = false → t.lnkDir = s.lnkDir) ∧
    (writesSequencer i = false → t.gwState = s.gwState ∧ t.txn = s.txn ∧ t.gwPolling = s.gwPolling) ∧
    (writesConfig i = false → t.cfgSilenceMs = s.cfgSilenceMs ∧ t.cfgRtuTimeoutMs = s.cfgRtuTimeoutMs) ∧
    (readsEnvironment i = false → t.env = s.env) ∧
    (emitsEvents i = false → t.trace = s.trace) ∧
    t.par = s.par ∧ t.cmdPort = s.cmdPort

/-- R76: no operation but those of the table changes a byte of a buffer, at any offset; LNK.SEND changes LNKBUF only under
the parameter, and an append changes no byte below the length register. -/
def Obligations.OnlyNamedOperationsReachBuffers : Prop :=
  (∀ (i : Instr) (s t : State), exec i s = .next t →
    (reachesLnkBuf i = false → ∀ off, t.lnkBuf.byteAt off = s.lnkBuf.byteAt off) ∧
    (reachesTcpBuf i = false → ∀ off, t.tcpBuf.byteAt off = s.tcpBuf.byteAt off) ∧
    (reachesTcpTx i = false → ∀ off, t.tcpTx.byteAt off = s.tcpTx.byteAt off)) ∧
  (∀ (bytes : List Byte) (s t : State), s.par.lnkClearOnSend = false → exec (.lnkSend bytes) s = .next t →
    ∀ off, t.lnkBuf.byteAt off = s.lnkBuf.byteAt off) ∧
  (∀ (chunk : List Byte) (s t : State), exec (.tfaAppend chunk) s = .next t →
    ∀ off, off < s.tfaLen → t.tcpBuf.byteAt off = s.tcpBuf.byteAt off) ∧
  (∀ (b : Byte) (s t : State), s.lnkLen ≠ s.par.lnkCap → exec (.lnkRxbyte b) s = .next t →
    ∀ off, off ≠ s.lnkLen → t.lnkBuf.byteAt off = s.lnkBuf.byteAt off)

/-- R320, R343, R115: every operation but a GW.POLL that goes on waiting ends with exactly one answer, which starts with a
status of 0 to 7 and stops there when the status is not OK (R117). That a send completes rests on log 6. -/
def Obligations.EveryOperationAnswersOnce : Prop :=
  ∀ (i : Instr) (s : State), ∃ t, exec i s = .next t ∧
    ((∃ status result, t.resPort = s.resPort ++ [status :: result] ∧ status.toNat ≤ 7 ∧ (status ≠ 0 → result = [])) ∨
      (i = .gwPoll ∧ t.gwPolling = true ∧ t.gwState = .awaiting ∧ t.resPort = s.resPort))

/-- R83, R188, R23: every step keeps the trace in this form: each write stands between the switch to transmit and the flush,
the flush before the switch back to receive; and nothing emitted is taken back. -/
def Obligations.WritesStayBracketed : Prop :=
  ∀ s t : State, bracketed s.trace = true → step s = .next t → bracketed t.trace = true ∧ s.trace <+: t.trace

/-- R78, R101, R188: of the events a step appends to the trace, every write to the line has at most 256 bytes (LNK.SEND does
not look into them), and every TCP response is a legal Modbus TCP frame. -/
def Obligations.StepSendsBoundedWritesAndLegalResponses : Prop :=
  ∀ s t : State, step s = .next t → ∃ new, t.trace = s.trace ++ new ∧ ∀ ev ∈ new,
    (∀ bytes, ev = .serWrite bytes → bytes.length ≤ 256) ∧ (∀ conn f, ev = .tcpSend conn f → legalTcpFrame f)
end

