-- ==== Sys2Proof/Laws/State.lean ====
section
/-!
SUPPORT. One lemma per field of State per named update, each true by definition: later proofs read a field through these and
unfold no record update.
-/

namespace Sys2Proof.Machine

variable (s : State)

@[simp] theorem State.afterNow_crc : s.afterNow.crc = s.crc := rfl
@[simp] theorem State.afterNow_lnkBuf : s.afterNow.lnkBuf = s.lnkBuf := rfl
@[simp] theorem State.afterNow_lnkLastRx : s.afterNow.lnkLastRx = s.lnkLastRx := rfl
@[simp] theorem State.afterNow_lnkDir : s.afterNow.lnkDir = s.lnkDir := rfl
@[simp] theorem State.afterNow_tcpBuf : s.afterNow.tcpBuf = s.tcpBuf := rfl
@[simp] theorem State.afterNow_tcpTx : s.afterNow.tcpTx = s.tcpTx := rfl
@[simp] theorem State.afterNow_gwState : s.afterNow.gwState = s.gwState := rfl
@[simp] theorem State.afterNow_txn : s.afterNow.txn = s.txn := rfl
@[simp] theorem State.afterNow_cfgSilenceMs : s.afterNow.cfgSilenceMs = s.cfgSilenceMs := rfl
@[simp] theorem State.afterNow_cfgRtuTimeoutMs : s.afterNow.cfgRtuTimeoutMs = s.cfgRtuTimeoutMs := rfl
@[simp] theorem State.afterNow_cmdPort : s.afterNow.cmdPort = s.cmdPort := rfl
@[simp] theorem State.afterNow_resPort : s.afterNow.resPort = s.resPort := rfl
@[simp] theorem State.afterNow_trace : s.afterNow.trace = s.trace := rfl
@[simp] theorem State.afterNow_gwPolling : s.afterNow.gwPolling = s.gwPolling := rfl
@[simp] theorem State.afterNow_env : s.afterNow.env = s.env.afterNow := rfl
@[simp] theorem State.afterNow_par : s.afterNow.par = s.par := rfl

@[simp] theorem State.afterSerRead_crc : s.afterSerRead.crc = s.crc := rfl
@[simp] theorem State.afterSerRead_lnkBuf : s.afterSerRead.lnkBuf = s.lnkBuf := rfl
@[simp] theorem State.afterSerRead_lnkLastRx : s.afterSerRead.lnkLastRx = s.lnkLastRx := rfl
@[simp] theorem State.afterSerRead_lnkDir : s.afterSerRead.lnkDir = s.lnkDir := rfl
@[simp] theorem State.afterSerRead_tcpBuf : s.afterSerRead.tcpBuf = s.tcpBuf := rfl
@[simp] theorem State.afterSerRead_tcpTx : s.afterSerRead.tcpTx = s.tcpTx := rfl
@[simp] theorem State.afterSerRead_gwState : s.afterSerRead.gwState = s.gwState := rfl
@[simp] theorem State.afterSerRead_txn : s.afterSerRead.txn = s.txn := rfl
@[simp] theorem State.afterSerRead_cfgSilenceMs : s.afterSerRead.cfgSilenceMs = s.cfgSilenceMs := rfl
@[simp] theorem State.afterSerRead_cfgRtuTimeoutMs : s.afterSerRead.cfgRtuTimeoutMs = s.cfgRtuTimeoutMs := rfl
@[simp] theorem State.afterSerRead_cmdPort : s.afterSerRead.cmdPort = s.cmdPort := rfl
@[simp] theorem State.afterSerRead_resPort : s.afterSerRead.resPort = s.resPort := rfl
@[simp] theorem State.afterSerRead_trace : s.afterSerRead.trace = s.trace := rfl
@[simp] theorem State.afterSerRead_gwPolling : s.afterSerRead.gwPolling = s.gwPolling := rfl
@[simp] theorem State.afterSerRead_env : s.afterSerRead.env = s.env.afterSerRead := rfl
@[simp] theorem State.afterSerRead_par : s.afterSerRead.par = s.par := rfl

@[simp] theorem State.afterTcpAccept_crc : s.afterTcpAccept.crc = s.crc := rfl
@[simp] theorem State.afterTcpAccept_lnkBuf : s.afterTcpAccept.lnkBuf = s.lnkBuf := rfl
@[simp] theorem State.afterTcpAccept_lnkLastRx : s.afterTcpAccept.lnkLastRx = s.lnkLastRx := rfl
@[simp] theorem State.afterTcpAccept_lnkDir : s.afterTcpAccept.lnkDir = s.lnkDir := rfl
@[simp] theorem State.afterTcpAccept_tcpBuf : s.afterTcpAccept.tcpBuf = s.tcpBuf := rfl
@[simp] theorem State.afterTcpAccept_tcpTx : s.afterTcpAccept.tcpTx = s.tcpTx := rfl
@[simp] theorem State.afterTcpAccept_gwState : s.afterTcpAccept.gwState = s.gwState := rfl
@[simp] theorem State.afterTcpAccept_txn : s.afterTcpAccept.txn = s.txn := rfl
@[simp] theorem State.afterTcpAccept_cfgSilenceMs : s.afterTcpAccept.cfgSilenceMs = s.cfgSilenceMs := rfl
@[simp] theorem State.afterTcpAccept_cfgRtuTimeoutMs : s.afterTcpAccept.cfgRtuTimeoutMs = s.cfgRtuTimeoutMs := rfl
@[simp] theorem State.afterTcpAccept_cmdPort : s.afterTcpAccept.cmdPort = s.cmdPort := rfl
@[simp] theorem State.afterTcpAccept_resPort : s.afterTcpAccept.resPort = s.resPort := rfl
@[simp] theorem State.afterTcpAccept_trace : s.afterTcpAccept.trace = s.trace := rfl
@[simp] theorem State.afterTcpAccept_gwPolling : s.afterTcpAccept.gwPolling = s.gwPolling := rfl
@[simp] theorem State.afterTcpAccept_env : s.afterTcpAccept.env = s.env.afterTcpAccept := rfl
@[simp] theorem State.afterTcpAccept_par : s.afterTcpAccept.par = s.par := rfl

@[simp] theorem State.afterTcpRead_crc : s.afterTcpRead.crc = s.crc := rfl
@[simp] theorem State.afterTcpRead_lnkBuf : s.afterTcpRead.lnkBuf = s.lnkBuf := rfl
@[simp] theorem State.afterTcpRead_lnkLastRx : s.afterTcpRead.lnkLastRx = s.lnkLastRx := rfl
@[simp] theorem State.afterTcpRead_lnkDir : s.afterTcpRead.lnkDir = s.lnkDir := rfl
@[simp] theorem State.afterTcpRead_tcpBuf : s.afterTcpRead.tcpBuf = s.tcpBuf := rfl
@[simp] theorem State.afterTcpRead_tcpTx : s.afterTcpRead.tcpTx = s.tcpTx := rfl
@[simp] theorem State.afterTcpRead_gwState : s.afterTcpRead.gwState = s.gwState := rfl
@[simp] theorem State.afterTcpRead_txn : s.afterTcpRead.txn = s.txn := rfl
@[simp] theorem State.afterTcpRead_cfgSilenceMs : s.afterTcpRead.cfgSilenceMs = s.cfgSilenceMs := rfl
@[simp] theorem State.afterTcpRead_cfgRtuTimeoutMs : s.afterTcpRead.cfgRtuTimeoutMs = s.cfgRtuTimeoutMs := rfl
@[simp] theorem State.afterTcpRead_cmdPort : s.afterTcpRead.cmdPort = s.cmdPort := rfl
@[simp] theorem State.afterTcpRead_resPort : s.afterTcpRead.resPort = s.resPort := rfl
@[simp] theorem State.afterTcpRead_trace : s.afterTcpRead.trace = s.trace := rfl
@[simp] theorem State.afterTcpRead_gwPolling : s.afterTcpRead.gwPolling = s.gwPolling := rfl
@[simp] theorem State.afterTcpRead_env : s.afterTcpRead.env = s.env.afterTcpRead := rfl
@[simp] theorem State.afterTcpRead_par : s.afterTcpRead.par = s.par := rfl

@[simp] theorem State.emit_crc (ev : Event) : (s.emit ev).crc = s.crc := rfl
@[simp] theorem State.emit_lnkBuf (ev : Event) : (s.emit ev).lnkBuf = s.lnkBuf := rfl
@[simp] theorem State.emit_lnkLastRx (ev : Event) : (s.emit ev).lnkLastRx = s.lnkLastRx := rfl
@[simp] theorem State.emit_lnkDir (ev : Event) : (s.emit ev).lnkDir = s.lnkDir := rfl
@[simp] theorem State.emit_tcpBuf (ev : Event) : (s.emit ev).tcpBuf = s.tcpBuf := rfl
@[simp] theorem State.emit_tcpTx (ev : Event) : (s.emit ev).tcpTx = s.tcpTx := rfl
@[simp] theorem State.emit_gwState (ev : Event) : (s.emit ev).gwState = s.gwState := rfl
@[simp] theorem State.emit_txn (ev : Event) : (s.emit ev).txn = s.txn := rfl
@[simp] theorem State.emit_cfgSilenceMs (ev : Event) : (s.emit ev).cfgSilenceMs = s.cfgSilenceMs := rfl
@[simp] theorem State.emit_cfgRtuTimeoutMs (ev : Event) : (s.emit ev).cfgRtuTimeoutMs = s.cfgRtuTimeoutMs := rfl
@[simp] theorem State.emit_cmdPort (ev : Event) : (s.emit ev).cmdPort = s.cmdPort := rfl
@[simp] theorem State.emit_resPort (ev : Event) : (s.emit ev).resPort = s.resPort := rfl
@[simp] theorem State.emit_trace (ev : Event) : (s.emit ev).trace = s.trace ++ [ev] := rfl
@[simp] theorem State.emit_gwPolling (ev : Event) : (s.emit ev).gwPolling = s.gwPolling := rfl
@[simp] theorem State.emit_env (ev : Event) : (s.emit ev).env = s.env := rfl
@[simp] theorem State.emit_par (ev : Event) : (s.emit ev).par = s.par := rfl

@[simp] theorem State.setDirection_crc (d : Direction) : (s.setDirection d).crc = s.crc := rfl
@[simp] theorem State.setDirection_lnkBuf (d : Direction) : (s.setDirection d).lnkBuf = s.lnkBuf := rfl
@[simp] theorem State.setDirection_lnkLastRx (d : Direction) : (s.setDirection d).lnkLastRx = s.lnkLastRx := rfl
@[simp] theorem State.setDirection_lnkDir (d : Direction) : (s.setDirection d).lnkDir = d := rfl
@[simp] theorem State.setDirection_tcpBuf (d : Direction) : (s.setDirection d).tcpBuf = s.tcpBuf := rfl
@[simp] theorem State.setDirection_tcpTx (d : Direction) : (s.setDirection d).tcpTx = s.tcpTx := rfl
@[simp] theorem State.setDirection_gwState (d : Direction) : (s.setDirection d).gwState = s.gwState := rfl
@[simp] theorem State.setDirection_txn (d : Direction) : (s.setDirection d).txn = s.txn := rfl
@[simp] theorem State.setDirection_cfgSilenceMs (d : Direction) : (s.setDirection d).cfgSilenceMs = s.cfgSilenceMs := rfl
@[simp] theorem State.setDirection_cfgRtuTimeoutMs (d : Direction) : (s.setDirection d).cfgRtuTimeoutMs = s.cfgRtuTimeoutMs := rfl
@[simp] theorem State.setDirection_cmdPort (d : Direction) : (s.setDirection d).cmdPort = s.cmdPort := rfl
@[simp] theorem State.setDirection_resPort (d : Direction) : (s.setDirection d).resPort = s.resPort := rfl
@[simp] theorem State.setDirection_trace (d : Direction) : (s.setDirection d).trace = s.trace ++ [.serDir d] := rfl
@[simp] theorem State.setDirection_gwPolling (d : Direction) : (s.setDirection d).gwPolling = s.gwPolling := rfl
@[simp] theorem State.setDirection_env (d : Direction) : (s.setDirection d).env = s.env := rfl
@[simp] theorem State.setDirection_par (d : Direction) : (s.setDirection d).par = s.par := rfl

@[simp] theorem State.post_crc (a : List Byte) : (s.post a).crc = s.crc := rfl
@[simp] theorem State.post_lnkBuf (a : List Byte) : (s.post a).lnkBuf = s.lnkBuf := rfl
@[simp] theorem State.post_lnkLastRx (a : List Byte) : (s.post a).lnkLastRx = s.lnkLastRx := rfl
@[simp] theorem State.post_lnkDir (a : List Byte) : (s.post a).lnkDir = s.lnkDir := rfl
@[simp] theorem State.post_tcpBuf (a : List Byte) : (s.post a).tcpBuf = s.tcpBuf := rfl
@[simp] theorem State.post_tcpTx (a : List Byte) : (s.post a).tcpTx = s.tcpTx := rfl
@[simp] theorem State.post_gwState (a : List Byte) : (s.post a).gwState = s.gwState := rfl
@[simp] theorem State.post_txn (a : List Byte) : (s.post a).txn = s.txn := rfl
@[simp] theorem State.post_cfgSilenceMs (a : List Byte) : (s.post a).cfgSilenceMs = s.cfgSilenceMs := rfl
@[simp] theorem State.post_cfgRtuTimeoutMs (a : List Byte) : (s.post a).cfgRtuTimeoutMs = s.cfgRtuTimeoutMs := rfl
@[simp] theorem State.post_cmdPort (a : List Byte) : (s.post a).cmdPort = s.cmdPort := rfl
@[simp] theorem State.post_resPort (a : List Byte) : (s.post a).resPort = s.resPort ++ [a] := rfl
@[simp] theorem State.post_trace (a : List Byte) : (s.post a).trace = s.trace := rfl
@[simp] theorem State.post_gwPolling (a : List Byte) : (s.post a).gwPolling = s.gwPolling := rfl
@[simp] theorem State.post_env (a : List Byte) : (s.post a).env = s.env := rfl
@[simp] theorem State.post_par (a : List Byte) : (s.post a).par = s.par := rfl

@[simp] theorem State.takeCommand_crc : s.takeCommand.crc = s.crc := rfl
@[simp] theorem State.takeCommand_lnkBuf : s.takeCommand.lnkBuf = s.lnkBuf := rfl
@[simp] theorem State.takeCommand_lnkLastRx : s.takeCommand.lnkLastRx = s.lnkLastRx := rfl
@[simp] theorem State.takeCommand_lnkDir : s.takeCommand.lnkDir = s.lnkDir := rfl
@[simp] theorem State.takeCommand_tcpBuf : s.takeCommand.tcpBuf = s.tcpBuf := rfl
@[simp] theorem State.takeCommand_tcpTx : s.takeCommand.tcpTx = s.tcpTx := rfl
@[simp] theorem State.takeCommand_gwState : s.takeCommand.gwState = s.gwState := rfl
@[simp] theorem State.takeCommand_txn : s.takeCommand.txn = s.txn := rfl
@[simp] theorem State.takeCommand_cfgSilenceMs : s.takeCommand.cfgSilenceMs = s.cfgSilenceMs := rfl
@[simp] theorem State.takeCommand_cfgRtuTimeoutMs : s.takeCommand.cfgRtuTimeoutMs = s.cfgRtuTimeoutMs := rfl
@[simp] theorem State.takeCommand_cmdPort : s.takeCommand.cmdPort = s.cmdPort.tail := rfl
@[simp] theorem State.takeCommand_resPort : s.takeCommand.resPort = s.resPort := rfl
@[simp] theorem State.takeCommand_trace : s.takeCommand.trace = s.trace := rfl
@[simp] theorem State.takeCommand_gwPolling : s.takeCommand.gwPolling = s.gwPolling := rfl
@[simp] theorem State.takeCommand_env : s.takeCommand.env = s.env := rfl
@[simp] theorem State.takeCommand_par : s.takeCommand.par = s.par := rfl

@[simp] theorem State.refuseCommand_crc : s.refuseCommand.crc = s.crc := rfl
@[simp] theorem State.refuseCommand_lnkBuf : s.refuseCommand.lnkBuf = s.lnkBuf := rfl
@[simp] theorem State.refuseCommand_lnkLastRx : s.refuseCommand.lnkLastRx = s.lnkLastRx := rfl
@[simp] theorem State.refuseCommand_lnkDir : s.refuseCommand.lnkDir = s.lnkDir := rfl
@[simp] theorem State.refuseCommand_tcpBuf : s.refuseCommand.tcpBuf = s.tcpBuf := rfl
@[simp] theorem State.refuseCommand_tcpTx : s.refuseCommand.tcpTx = s.tcpTx := rfl
@[simp] theorem State.refuseCommand_gwState : s.refuseCommand.gwState = s.gwState := rfl
@[simp] theorem State.refuseCommand_txn : s.refuseCommand.txn = s.txn := rfl
@[simp] theorem State.refuseCommand_cfgSilenceMs : s.refuseCommand.cfgSilenceMs = s.cfgSilenceMs := rfl
@[simp] theorem State.refuseCommand_cfgRtuTimeoutMs : s.refuseCommand.cfgRtuTimeoutMs = s.cfgRtuTimeoutMs := rfl
@[simp] theorem State.refuseCommand_cmdPort : s.refuseCommand.cmdPort = s.cmdPort := rfl
@[simp] theorem State.refuseCommand_resPort : s.refuseCommand.resPort = s.resPort ++ [[7]] := rfl
@[simp] theorem State.refuseCommand_trace : s.refuseCommand.trace = s.trace := rfl
@[simp] theorem State.refuseCommand_gwPolling : s.refuseCommand.gwPolling = s.gwPolling := rfl
@[simp] theorem State.refuseCommand_env : s.refuseCommand.env = s.env := rfl
@[simp] theorem State.refuseCommand_par : s.refuseCommand.par = s.par := rfl

@[simp] theorem State.placeCommand_crc (c : List Byte) : (s.placeCommand c).crc = s.crc := rfl
@[simp] theorem State.placeCommand_lnkBuf (c : List Byte) : (s.placeCommand c).lnkBuf = s.lnkBuf := rfl
@[simp] theorem State.placeCommand_lnkLastRx (c : List Byte) : (s.placeCommand c).lnkLastRx = s.lnkLastRx := rfl
@[simp] theorem State.placeCommand_lnkDir (c : List Byte) : (s.placeCommand c).lnkDir = s.lnkDir := rfl
@[simp] theorem State.placeCommand_tcpBuf (c : List Byte) : (s.placeCommand c).tcpBuf = s.tcpBuf := rfl
@[simp] theorem State.placeCommand_tcpTx (c : List Byte) : (s.placeCommand c).tcpTx = s.tcpTx := rfl
@[simp] theorem State.placeCommand_gwState (c : List Byte) : (s.placeCommand c).gwState = s.gwState := rfl
@[simp] theorem State.placeCommand_txn (c : List Byte) : (s.placeCommand c).txn = s.txn := rfl
@[simp] theorem State.placeCommand_cfgSilenceMs (c : List Byte) : (s.placeCommand c).cfgSilenceMs = s.cfgSilenceMs := rfl
@[simp] theorem State.placeCommand_cfgRtuTimeoutMs (c : List Byte) : (s.placeCommand c).cfgRtuTimeoutMs = s.cfgRtuTimeoutMs := rfl
@[simp] theorem State.placeCommand_cmdPort (c : List Byte) : (s.placeCommand c).cmdPort = c :: s.cmdPort := rfl
@[simp] theorem State.placeCommand_resPort (c : List Byte) : (s.placeCommand c).resPort = s.resPort := rfl
@[simp] theorem State.placeCommand_trace (c : List Byte) : (s.placeCommand c).trace = s.trace := rfl
@[simp] theorem State.placeCommand_gwPolling (c : List Byte) : (s.placeCommand c).gwPolling = false := rfl
@[simp] theorem State.placeCommand_env (c : List Byte) : (s.placeCommand c).env = s.env := rfl
@[simp] theorem State.placeCommand_par (c : List Byte) : (s.placeCommand c).par = s.par := rfl

@[simp] theorem tfaClear_crc : (tfaClear s).crc = s.crc := rfl
@[simp] theorem tfaClear_lnkBuf : (tfaClear s).lnkBuf = s.lnkBuf := rfl
@[simp] theorem tfaClear_lnkLastRx : (tfaClear s).lnkLastRx = s.lnkLastRx := rfl
@[simp] theorem tfaClear_lnkDir : (tfaClear s).lnkDir = s.lnkDir := rfl
@[simp] theorem tfaClear_tcpBuf : (tfaClear s).tcpBuf = [] := rfl
@[simp] theorem tfaClear_tcpTx : (tfaClear s).tcpTx = s.tcpTx := rfl
@[simp] theorem tfaClear_gwState : (tfaClear s).gwState = s.gwState := rfl
@[simp] theorem tfaClear_txn : (tfaClear s).txn = s.txn := rfl
@[simp] theorem tfaClear_cfgSilenceMs : (tfaClear s).cfgSilenceMs = s.cfgSilenceMs := rfl
@[simp] theorem tfaClear_cfgRtuTimeoutMs : (tfaClear s).cfgRtuTimeoutMs = s.cfgRtuTimeoutMs := rfl
@[simp] theorem tfaClear_cmdPort : (tfaClear s).cmdPort = s.cmdPort := rfl
@[simp] theorem tfaClear_resPort : (tfaClear s).resPort = s.resPort := rfl
@[simp] theorem tfaClear_trace : (tfaClear s).trace = s.trace := rfl
@[simp] theorem tfaClear_gwPolling : (tfaClear s).gwPolling = s.gwPolling := rfl
@[simp] theorem tfaClear_env : (tfaClear s).env = s.env := rfl
@[simp] theorem tfaClear_par : (tfaClear s).par = s.par := rfl

@[simp] theorem gwEnd_crc : (gwEnd s).crc = s.crc := rfl
@[simp] theorem gwEnd_lnkBuf : (gwEnd s).lnkBuf = s.lnkBuf := rfl
@[simp] theorem gwEnd_lnkLastRx : (gwEnd s).lnkLastRx = s.lnkLastRx := rfl
@[simp] theorem gwEnd_lnkDir : (gwEnd s).lnkDir = s.lnkDir := rfl
@[simp] theorem gwEnd_tcpBuf : (gwEnd s).tcpBuf = [] := rfl
@[simp] theorem gwEnd_tcpTx : (gwEnd s).tcpTx = s.tcpTx := rfl
@[simp] theorem gwEnd_gwState : (gwEnd s).gwState = .idle := rfl
@[simp] theorem gwEnd_txn : (gwEnd s).txn = none := rfl
@[simp] theorem gwEnd_cfgSilenceMs : (gwEnd s).cfgSilenceMs = s.cfgSilenceMs := rfl
@[simp] theorem gwEnd_cfgRtuTimeoutMs : (gwEnd s).cfgRtuTimeoutMs = s.cfgRtuTimeoutMs := rfl
@[simp] theorem gwEnd_cmdPort : (gwEnd s).cmdPort = s.cmdPort := rfl
@[simp] theorem gwEnd_resPort : (gwEnd s).resPort = s.resPort := rfl
@[simp] theorem gwEnd_trace : (gwEnd s).trace = s.trace := rfl
@[simp] theorem gwEnd_gwPolling : (gwEnd s).gwPolling = s.gwPolling := rfl
@[simp] theorem gwEnd_env : (gwEnd s).env = s.env := rfl
@[simp] theorem gwEnd_par : (gwEnd s).par = s.par := rfl

@[simp] theorem sysResetState_crc : (sysResetState s).crc = 0xFFFF := rfl
@[simp] theorem sysResetState_lnkBuf : (sysResetState s).lnkBuf = [] := rfl
@[simp] theorem sysResetState_lnkLastRx : (sysResetState s).lnkLastRx = 0 := rfl
@[simp] theorem sysResetState_lnkDir : (sysResetState s).lnkDir = .receive := rfl
@[simp] theorem sysResetState_tcpBuf : (sysResetState s).tcpBuf = [] := rfl
@[simp] theorem sysResetState_tcpTx : (sysResetState s).tcpTx = [] := rfl
@[simp] theorem sysResetState_gwState : (sysResetState s).gwState = .idle := rfl
@[simp] theorem sysResetState_txn : (sysResetState s).txn = none := rfl
@[simp] theorem sysResetState_cfgSilenceMs : (sysResetState s).cfgSilenceMs = Config.SILENCE_MS_RESET := rfl
@[simp] theorem sysResetState_cfgRtuTimeoutMs : (sysResetState s).cfgRtuTimeoutMs = s.par.rtuTimeoutMsReset := rfl
@[simp] theorem sysResetState_cmdPort : (sysResetState s).cmdPort = s.cmdPort := rfl
@[simp] theorem sysResetState_resPort : (sysResetState s).resPort = s.resPort := rfl
@[simp] theorem sysResetState_trace : (sysResetState s).trace = s.trace := rfl
@[simp] theorem sysResetState_gwPolling : (sysResetState s).gwPolling = false := rfl
@[simp] theorem sysResetState_env : (sysResetState s).env = s.env := rfl
@[simp] theorem sysResetState_par : (sysResetState s).par = s.par := rfl

end Sys2Proof.Machine
end

