-- ==== Sys2Proof/Laws/Ops.lean ====
section
/-!
SUPPORT. What each shared operation can do, said once: buffers, encodings, the environment's answers, and the operations of
the units as equations. Later proofs cite these and unfold no operation.
-/

namespace Sys2Proof.Machine

/-! ## Multi-byte fields and letters -/

@[simp] theorem half_hi8_lo8 (v : Half) : half (hi8 v) (lo8 v) = v := by
  apply BitVec.eq_of_toNat_eq
  have h := v.isLt
  simp only [half, hi8, lo8, BitVec.toNat_append, BitVec.extractLsb'_toNat, Nat.shiftRight_zero]
  rw [← Nat.shiftLeft_add_eq_or_of_lt (by omega), Nat.shiftRight_eq_div_pow, Nat.shiftLeft_eq]
  omega

@[simp] theorem encB_length (b : Byte) : (encB b).length = 1 := rfl
@[simp] theorem encH_length (v : Half) : (encH v).length = 2 := rfl
@[simp] theorem encW_length (v : Millis) : (encW v).length = 4 := rfl
@[simp] theorem encS_length (s : List Byte) : (encS s).length = 2 + s.length := by simp [encS]

/-! ## The conditions as propositions, with the constants of Config as numbers -/

/-- The form of a buffer (R78). -/
theorem Memory.wf_iff {cap : Nat} {m : Memory} : m.wf cap = true ↔ m.length ≤ cap := by simp [Memory.wf]

/-- R9. -/
theorem Config.TCP_CAP_eq : Config.TCP_CAP = 260 := rfl

/-- R10. -/
theorem Config.PDU_MAX_eq : Config.PDU_MAX = 253 := rfl

/-- R24. -/
theorem reached_iff {a d : Millis} : reached a d = true ↔ (a - d).toNat < 2147483648 := by
  rw [reached, decide_eq_true_eq]

/-- R184. -/
theorem State.lineSilent_iff {s : State} {now : Millis} :
    s.lineSilent now = true ↔ 0 < s.lnkLen ∧ s.cfgSilenceMs.toNat < (now - s.lnkLastRx).toNat := by
  rw [State.lineSilent, Bool.and_eq_true, decide_eq_true_eq, decide_eq_true_eq, elapsed]

/-- R212. -/
theorem frameComplete_iff {m : Memory} : frameComplete m = true ↔ 7 ≤ m.length ∧ 6 + (be16 m 4).toNat ≤ m.length := by
  rw [frameComplete, Bool.and_eq_true, decide_eq_true_eq, decide_eq_true_eq, declaredLength]

/-- R217. -/
theorem tfaOverflow_iff {m : Memory} : tfaOverflow m = true ↔ m.length = 260 ∧ frameComplete m = false := by
  rw [tfaOverflow, Bool.and_eq_true, decide_eq_true_eq, Config.TCP_CAP_eq]
  cases frameComplete m <;> simp

/-! ## Buffers -/

@[simp] theorem Memory.setLen_zero (m : Memory) : m.setLen 0 = [] := rfl

/-- Reading the whole valid prefix. -/
@[simp] theorem Memory.read_all (m : Memory) : m.read 0 m.length = m := by simp [Memory.read]

/-- A write at the end appends. -/
@[simp] theorem Memory.write_end (m : Memory) (s : List Byte) : m.write m.length s = m ++ s := by simp [Memory.write]

/-- A write from the start of a buffer that is then exactly that long replaces its contents. -/
theorem Memory.write_start_setLen (m : Memory) (s : List Byte) : (m.write 0 s).setLen s.length = s := by
  simp [Memory.write, Memory.setLen]

/-- A write leaves every byte outside the bytes written alone. -/
theorem Memory.byteAt_write_of_lt (m : Memory) (off i : Nat) (s : List Byte) (ho : off ≤ m.length) (hi : i < off) :
    (m.write off s).byteAt i = m.byteAt i := by
  have h : i < (m.take off).length := by simp; omega
  simp only [Memory.byteAt, Memory.write, List.append_assoc]
  rw [List.getElem?_append_left h, List.getElem?_take]
  simp [hi]

/-- A write puts its bytes where it says. -/
theorem Memory.byteAt_write (m : Memory) (off i : Nat) (s : List Byte) (ho : off ≤ m.length) (hi : i < s.length) :
    (m.write off s).byteAt (off + i) = some s[i] := by
  have hl : (m.take off).length = off := by simp; omega
  simp only [Memory.byteAt, Memory.write, List.append_assoc]
  rw [List.getElem?_append_right (by omega), hl, Nat.add_sub_cancel_left, List.getElem?_append_left hi]
  simp [hi]

/-- A write within the capacity keeps the form of a buffer (R78). -/
theorem Memory.write_wf {cap off : Nat} {m : Memory} {s : List Byte} (h : m.wf cap = true) (hs : off + s.length ≤ cap) :
    (m.write off s).wf cap = true := by
  simp only [Memory.wf, decide_eq_true_eq] at h ⊢
  simp only [Memory.write, List.length_append, List.length_take, List.length_drop]
  omega

/-- Setting the length register keeps the form of a buffer. -/
theorem Memory.setLen_wf {cap n : Nat} {m : Memory} (h : m.wf cap = true) : (m.setLen n).wf cap = true := by
  simp only [Memory.wf, decide_eq_true_eq] at h ⊢
  simp only [Memory.setLen, List.length_take]
  omega

/-- The reset state's buffers have the form. -/
theorem Memory.reset_wf : State.reset.lnkBuf.wf State.reset.par.lnkCap = true ∧
    State.reset.tcpBuf.wf Config.TCP_CAP = true ∧ State.reset.tcpTx.wf Config.TCP_CAP = true := ⟨rfl, rfl, rfl⟩

/-! ## The environment: a read of one kind leaves the placed answers of the others -/

@[simp] theorem Env.afterNow_rxQ (e : Env) : e.afterNow.rxQ = e.rxQ := by unfold Env.afterNow; split <;> rfl
@[simp] theorem Env.afterNow_acceptQ (e : Env) : e.afterNow.acceptQ = e.acceptQ := by unfold Env.afterNow; split <;> rfl
@[simp] theorem Env.afterNow_readQ (e : Env) : e.afterNow.readQ = e.readQ := by unfold Env.afterNow; split <;> rfl
@[simp] theorem Env.afterNow_nowQ (e : Env) : e.afterNow.nowQ = e.nowQ.tail := by unfold Env.afterNow; split <;> simp_all
@[simp] theorem Env.afterNow_lastNow (e : Env) : e.afterNow.lastNow = some e.now := by
  unfold Env.afterNow; split <;> rfl
@[simp] theorem Env.afterSerRead_lastNow (e : Env) : e.afterSerRead.lastNow = e.lastNow := by
  unfold Env.afterSerRead; split <;> rfl
@[simp] theorem Env.afterTcpAccept_lastNow (e : Env) : e.afterTcpAccept.lastNow = e.lastNow := by
  unfold Env.afterTcpAccept; split <;> rfl
@[simp] theorem Env.afterTcpRead_lastNow (e : Env) : e.afterTcpRead.lastNow = e.lastNow := by
  unfold Env.afterTcpRead; split <;> rfl
@[simp] theorem Env.afterSerRead_nowQ (e : Env) : e.afterSerRead.nowQ = e.nowQ := by
  unfold Env.afterSerRead; split <;> rfl
@[simp] theorem Env.afterSerRead_rxQ (e : Env) : e.afterSerRead.rxQ = e.rxQ.tail := by
  unfold Env.afterSerRead; split <;> simp_all
@[simp] theorem Env.afterSerRead_acceptQ (e : Env) : e.afterSerRead.acceptQ = e.acceptQ := by
  unfold Env.afterSerRead; split <;> rfl
@[simp] theorem Env.afterSerRead_readQ (e : Env) : e.afterSerRead.readQ = e.readQ := by
  unfold Env.afterSerRead; split <;> rfl
@[simp] theorem Env.afterTcpAccept_nowQ (e : Env) : e.afterTcpAccept.nowQ = e.nowQ := by
  unfold Env.afterTcpAccept; split <;> rfl
@[simp] theorem Env.afterTcpAccept_rxQ (e : Env) : e.afterTcpAccept.rxQ = e.rxQ := by
  unfold Env.afterTcpAccept; split <;> rfl
@[simp] theorem Env.afterTcpAccept_acceptQ (e : Env) : e.afterTcpAccept.acceptQ = e.acceptQ.tail := by
  unfold Env.afterTcpAccept; split <;> simp_all
@[simp] theorem Env.afterTcpAccept_readQ (e : Env) : e.afterTcpAccept.readQ = e.readQ := by
  unfold Env.afterTcpAccept; split <;> rfl
@[simp] theorem Env.afterTcpRead_nowQ (e : Env) : e.afterTcpRead.nowQ = e.nowQ := by
  unfold Env.afterTcpRead; split <;> rfl
@[simp] theorem Env.afterTcpRead_rxQ (e : Env) : e.afterTcpRead.rxQ = e.rxQ := by
  unfold Env.afterTcpRead; split <;> rfl
@[simp] theorem Env.afterTcpRead_acceptQ (e : Env) : e.afterTcpRead.acceptQ = e.acceptQ := by
  unfold Env.afterTcpRead; split <;> rfl
@[simp] theorem Env.afterTcpRead_readQ (e : Env) : e.afterTcpRead.readQ = e.readQ.tail := by
  unfold Env.afterTcpRead; split <;> simp_all

/-- A TCP read gives no more than was asked for (R61). -/
theorem Env.tcpRead_length (e : Env) (maxLen : Nat) : (e.tcpRead maxLen).length ≤ maxLen := by
  unfold Env.tcpRead; split <;> simp

/-! ## The units' operations -/

/-- LNK.RXBYTE after its sample of NOW: the full buffer is discarded with the byte, or the byte is appended and stamped. -/
theorem lnkAccept_eq (now : Millis) (b : Byte) (s : State) :
    lnkAccept now b s =
      if s.lnkLen = s.par.lnkCap then ({ s with lnkBuf := [] }, .error .frameOverflow)
      else ({ s with lnkBuf := s.lnkBuf ++ [b], lnkLastRx := now }, .ok ()) := by
  by_cases h : s.lnkLen = s.par.lnkCap
  · rw [lnkAccept, if_pos h, if_pos h]; rfl
  · rw [lnkAccept, if_neg h, if_neg h, State.ret, State.lnkLen, Memory.write_end]

/-- The bytes of one poll write LNKBUF and LNK_LAST_RX and nothing else; the buffer keeps within its capacity, and the
stamp is the old one or this poll's. -/
theorem lnkAcceptAll_cases (now : Millis) (bs : List Byte) (s : State) :
    ∃ buf last, lnkAcceptAll now bs s = { s with lnkBuf := buf, lnkLastRx := last } ∧
      (s.lnkLen ≤ s.par.lnkCap → buf.length ≤ s.par.lnkCap) ∧ (last = s.lnkLastRx ∨ last = now) := by
  induction bs generalizing s with
  | nil => exact ⟨s.lnkBuf, s.lnkLastRx, rfl, id, .inl rfl⟩
  | cons b r ih =>
    simp only [lnkAcceptAll, lnkAccept_eq]
    split
    · obtain ⟨buf, last, e, hw, hl⟩ := ih { s with lnkBuf := [] }
      exact ⟨buf, last, by simpa using e, fun _ => hw (by simp [State.lnkLen, Params.lnkCap]), hl⟩
    · rename_i hne
      obtain ⟨buf, last, e, hw, hl⟩ := ih { s with lnkBuf := s.lnkBuf ++ [b], lnkLastRx := now }
      refine ⟨buf, last, by simpa using e, fun hc => hw ?_, .inr (by simpa using hl)⟩
      simp only [State.lnkLen, List.length_append, List.length_singleton] at *
      omega

/-- LNK.POLL writes LNKBUF, LNK_LAST_RX and the environment and nothing else; a delivered frame leaves LNKBUF empty and is
at least one byte long. -/
theorem lnkPollOp_cases (s : State) :
    ∃ buf last, ((lnkPollOp s).1 =
        { s with lnkBuf := buf, lnkLastRx := last, env := s.env.afterNow.afterSerRead }) ∧
      (s.lnkLen ≤ s.par.lnkCap → buf.length ≤ s.par.lnkCap) ∧
      (∀ f, (lnkPollOp s).2 = some f → buf = [] ∧ 0 < f.length ∧ (s.lnkLen ≤ s.par.lnkCap → f.length ≤ s.par.lnkCap)) := by
  obtain ⟨buf, last, e, hw, -⟩ :=
    lnkAcceptAll_cases s.env.now s.afterNow.env.serRead s.afterNow.afterSerRead
  simp only [State.lnkLen, State.afterNow_lnkBuf, State.afterSerRead_lnkBuf, State.afterNow_par,
    State.afterSerRead_par] at hw
  have hg : lnkGather s = { s with lnkBuf := buf, lnkLastRx := last, env := s.env.afterNow.afterSerRead } := e
  by_cases hs : (lnkGather s).lineSilent s.env.now = true
  · have hp : lnkPollOp s = ({ lnkGather s with lnkBuf := [] }, some ((lnkGather s).lnkBuf.read 0 (lnkGather s).lnkLen)) := by
      rw [lnkPollOp, if_pos hs, Memory.setLen_zero]
    rw [hp, hg]
    rw [hg] at hs
    refine ⟨[], last, rfl, fun _ => by simp, fun f hf => ?_⟩
    simp only [State.lineSilent, State.lnkLen, Bool.and_eq_true] at hs
    simp only [State.lnkLen, Memory.read_all, Option.some.injEq] at hf
    subst hf
    exact ⟨rfl, of_decide_eq_true hs.1, hw⟩
  · have hp : lnkPollOp s = (lnkGather s, none) := by rw [lnkPollOp, if_neg hs]
    rw [hp, hg]
    exact ⟨buf, last, rfl, hw, fun f hf => by simp at hf⟩

/-- LNK.SEND: an operand that is too long does nothing; else the four events, the driver back in receive (R188). -/
theorem lnkSendOp_eq (bytes : List Byte) (s : State) :
    lnkSendOp bytes s =
      if 256 < bytes.length then (s, .error .frameOverflow)
      else ({ s with
        lnkBuf := if s.par.lnkClearOnSend then [] else s.lnkBuf
        lnkDir := .receive
        trace := s.trace ++ [.serDir .transmit, .serWrite bytes, .serFlush, .serDir .receive] }, .ok ()) := by
  by_cases h : 256 < bytes.length
  · rw [lnkSendOp, if_pos (c := Config.RTU_MAX < _) h, if_pos h]; rfl
  · rw [lnkSendOp, if_neg (c := Config.RTU_MAX < _) h, if_neg h]
    cases hc : s.par.lnkClearOnSend <;> simp [clearOnSend, hc, State.setDirection, State.emit, State.ret]

/-- TFA.APPEND takes what fits (R211). -/
theorem tfaAppendOp_eq (chunk : List Byte) (s : State) :
    tfaAppendOp chunk s =
      ({ s with tcpBuf := s.tcpBuf ++ chunk.take (tfaRoom chunk s) }, .ok (BitVec.ofNat 16 (tfaRoom chunk s))) := by
  simp [tfaAppendOp, State.ret, State.tfaLen, slice]

/-- TFA.APPEND keeps TCPBUF within its capacity. -/
theorem tfaAppendOp_length (chunk : List Byte) (s : State) (h : s.tfaLen ≤ Config.TCP_CAP) :
    (tfaAppendOp chunk s).1.tcpBuf.length ≤ Config.TCP_CAP := by
  simp only [tfaAppendOp_eq, tfaRoom, State.tfaLen, List.length_append, List.length_take] at *
  omega

/-- MBAP.BUILD: TCPTX holds the header (R232). -/
theorem mbapBuildOp_eq (t : Half) (u : Byte) (l : Half) (s : State) :
    mbapBuildOp t u l s =
      if 253 < l.toNat then (s, .error .pduTooLarge)
      else ({ s with tcpTx := mbapHeader t u l }, .ok (mbapHeader t u l)) := by
  by_cases hl : 253 < l.toNat
  · rw [mbapBuildOp, if_pos (c := Config.PDU_MAX < _) hl, if_pos hl]; rfl
  · have h := Memory.write_start_setLen s.tcpTx (mbapHeader t u l)
    have e : (mbapHeader t u l).length = 7 := rfl
    rw [e] at h
    rw [mbapBuildOp, if_neg (c := Config.PDU_MAX < _) hl, if_neg hl, State.ret, h]

/-- PDU.TCPRESP: TCPTX holds the header and the PDU (R254). -/
theorem pduTcprespOp_eq (t : Half) (u : Byte) (pdu : List Byte) (s : State) :
    pduTcprespOp t u pdu s =
      if 253 < pdu.length then (s, .error .pduTooLarge)
      else ({ s with tcpTx := mbapHeader t u (BitVec.ofNat 16 pdu.length) ++ pdu },
        .ok (mbapHeader t u (BitVec.ofNat 16 pdu.length) ++ pdu)) := by
  by_cases h : 253 < pdu.length
  · rw [pduTcprespOp, if_pos (c := Config.PDU_MAX < _) h, if_pos h]; rfl
  · have hm : (BitVec.ofNat 16 pdu.length).toNat = pdu.length := by
      rw [BitVec.toNat_ofNat, Nat.mod_eq_of_lt (by omega)]
    have e : (mbapHeader t u (BitVec.ofNat 16 pdu.length)).length = 7 := rfl
    have hw : (Memory.write (mbapHeader t u (BitVec.ofNat 16 pdu.length)) 7 pdu).setLen (7 + pdu.length) =
        mbapHeader t u (BitVec.ofNat 16 pdu.length) ++ pdu := by
      have := Memory.write_end (mbapHeader t u (BitVec.ofNat 16 pdu.length)) pdu
      rw [e] at this
      rw [this, Memory.setLen, List.take_of_length_le (by simp [e])]
    have hb : (mbapBuildOp t u (BitVec.ofNat 16 pdu.length) s).1 =
        { s with tcpTx := mbapHeader t u (BitVec.ofNat 16 pdu.length) } := by
      rw [mbapBuildOp_eq, if_neg (by rw [hm]; exact h)]
    rw [pduTcprespOp, if_neg (c := Config.PDU_MAX < _) h, if_neg h, hb]
    simp only [hw, State.ret, State.tcpTxLen, Memory.read_all]

/-- RTU.BUILD: an oversized PDU does nothing; else the frame, and its checksum in CRC (R161). -/
theorem rtuBuildOp_eq (u : Byte) (pdu : List Byte) (s : State) :
    rtuBuildOp u pdu s =
      if 253 < pdu.length then (s, .error .pduTooLarge)
      else ({ s with crc := crc16 (u :: pdu) }, .ok (u :: pdu ++ leBytes (crc16 (u :: pdu)))) := by
  by_cases h : 253 < pdu.length
  · rw [rtuBuildOp, pduWrap, if_pos (c := Config.PDU_MAX < _) h, if_pos h]; rfl
  · rw [rtuBuildOp, pduWrap, if_neg (c := Config.PDU_MAX < _) h, if_neg h]; rfl

/-- RTU.PARSE writes CRC and nothing else, and that only when both length checks pass; a PDU it returns has at most 253
bytes (R162). -/
theorem rtuParseOp_cases (f : List Byte) (s : State) :
    (rtuParseOp f s = (s, .error .frameTooShort) ∧ f.length < 4) ∨
    (rtuParseOp f s = (s, .error .frameOverflow) ∧ 256 < f.length) ∨
    (4 ≤ f.length ∧ f.length ≤ 256 ∧
      ((rtuParseOp f s = ({ s with crc := crc16 (f.take (f.length - 2)) }, .error .rtuCrcMismatch) ∧
          crc16 (f.take (f.length - 2)) ≠ le16 f (f.length - 2)) ∨
       (rtuParseOp f s = ({ s with crc := crc16 (f.take (f.length - 2)) },
            .ok (f.getD 0 0, (f.take (f.length - 2)).drop 1)) ∧
          crc16 (f.take (f.length - 2)) = le16 f (f.length - 2)))) := by
  unfold rtuParseOp
  split
  · rename_i h
    exact .inl ⟨rfl, h⟩
  · split
    · rename_i h
      exact .inr (.inl ⟨rfl, h⟩)
    · rename_i h1 h2
      refine .inr (.inr ⟨by omega, by simpa [Config.RTU_MAX] using h2, ?_⟩)
      have hb : slice f 0 (f.length - 2) = f.take (f.length - 2) := by simp [slice]
      simp only [hb]
      split
      · rename_i hc
        exact .inl ⟨rfl, hc⟩
      · rename_i hc
        refine .inr ⟨?_, by simpa using hc⟩
        have hl : (f.take (f.length - 2)).length = f.length - 2 := by simp
        have h2' : f.length ≤ 256 := by simpa [Config.RTU_MAX] using h2
        have hs : pduStrip (f.take (f.length - 2)) = .ok (f.getD 0 0, (f.take (f.length - 2)).drop 1) := by
          unfold pduStrip
          rw [if_neg (by omega), if_neg (by simp only [Config.PDU_MAX]; omega)]
          have hd : (f.take (f.length - 2)).getD 0 0 = f.getD 0 0 := by
            rw [List.getD_eq_getElem?_getD, List.getD_eq_getElem?_getD, List.getElem?_take, if_pos (by omega)]
          rw [hd, slice, List.take_of_length_le (by simp)]
        rw [hs]

/-- CFG.SET: the configuration register written, or IllegalOp (R301). -/
theorem cfgSetOp_cases (idx : Byte) (value : Millis) (s : State) :
    (cfgSetOp idx value s = (s, .error .illegalOp)) ∨
    (idx = 0 ∧ value.toNat < 2147483648 ∧ cfgSetOp idx value s = ({ s with cfgSilenceMs := value }, .ok ())) ∨
    (idx = 1 ∧ 0 < value.toNat ∧ value.toNat < 2147483648 ∧
      cfgSetOp idx value s = ({ s with cfgRtuTimeoutMs := value }, .ok ())) := by
  have hm : cfgMax = 2147483647 := rfl
  unfold cfgSetOp
  split
  · rename_i h0
    split
    · exact .inl rfl
    · exact .inr (.inl ⟨h0, by omega, rfl⟩)
  · split
    · rename_i h1
      split
      · exact .inl rfl
      · rename_i hv
        rw [not_or] at hv
        have hz : value.toNat ≠ 0 := fun hz => hv.1 (BitVec.eq_of_toNat_eq hz)
        exact .inr (.inr ⟨h1, by omega, by omega, rfl⟩)
    · exact .inl rfl

end Sys2Proof.Machine
end

