-- ==== Sys2Proof/Laws/Gateway.lean ====
section
/-!
SUPPORT. Everything one step of the gateway sequencer can do, said once (R267 to R278), and what a GW.POLL adds to it (R280).
Later proofs cite these and unfold no operation of the sequencer.
-/

namespace Sys2Proof.Machine

/-- The big-endian field as a number (R21). -/
theorem be16_toNat (m : List Byte) (i : Nat) :
    (be16 m i).toNat = (m.getD i 0).toNat * 256 + (m.getD (i + 1) 0).toNat := by
  have := (m.getD (i + 1) 0).isLt
  rw [be16, half, BitVec.toNat_append, ← Nat.shiftLeft_add_eq_or_of_lt (by omega), Nat.shiftLeft_eq]

/-- What MBAP.PARSE takes off a length field that is not 0 (R231). -/
theorem pred_toNat {v : Half} (h : v ≠ 0) : (v - 1).toNat = v.toNat - 1 ∧ 0 < v.toNat := by
  have hn : v.toNat ≠ 0 := fun hz => h (BitVec.eq_of_toNat_eq hz)
  have := v.isLt
  have h1 : (1 : Half).toNat = 1 := rfl
  rw [BitVec.toNat_sub, h1]
  omega

/-- The read of an Idle step takes all that comes: no more was asked for than there is room for (R268). -/
theorem gwRead_eq (s : State) :
    gwRead s.afterTcpAccept = { s with
      tcpBuf := s.tcpBuf ++ s.env.afterTcpAccept.tcpRead (260 - s.tfaLen)
      env := s.env.afterTcpAccept.afterTcpRead } := by
  have h := s.env.afterTcpAccept.tcpRead_length (260 - s.tfaLen)
  have hr : tfaRoom (s.env.afterTcpAccept.tcpRead (260 - s.tfaLen)) s.afterTcpAccept.afterTcpRead =
      (s.env.afterTcpAccept.tcpRead (260 - s.tfaLen)).length := Nat.min_eq_left h
  show (tfaAppendOp (s.env.afterTcpAccept.tcpRead (260 - s.tfaLen)) s.afterTcpAccept.afterTcpRead).1 = _
  rw [tfaAppendOp_eq, hr, List.take_length]
  rfl

/-- An Idle step with a connection examines the bytes read (R268). -/
theorem gwStepOp_idle (s : State) (conn : Conn) (h : s.gwState = .idle) (hc : s.env.tcpAccept = some conn) :
    gwStepOp s = gwExamine conn { s with
      tcpBuf := s.tcpBuf ++ s.env.afterTcpAccept.tcpRead (260 - s.tfaLen)
      env := s.env.afterTcpAccept.afterTcpRead } := by
  simp only [gwStepOp, h, gwIdleStep, hc, gwRead_eq]

/-- An Awaiting step (R274). -/
theorem gwStepOp_awaiting (s : State) (h : s.gwState = .awaiting) : gwStepOp s = gwAwaitStep s := by
  simp only [gwStepOp, h]

/-- Forwarding a PDU of at most 253 bytes always succeeds (R271, R272). -/
theorem gwForward_eq (conn : Conn) (tid : Half) (uid : Byte) (pdu : List Byte) (s : State) (h : pdu.length ≤ 253) :
    gwForward conn tid uid pdu s = ({ s with
      crc := crc16 (uid :: pdu)
      lnkBuf := if s.par.lnkClearOnSend then [] else s.lnkBuf
      lnkDir := .receive
      gwState := .awaiting
      txn := some { tid, uid, pdu, deadline := s.env.now + s.cfgRtuTimeoutMs, conn }
      trace := s.trace ++ [.serDir .transmit, .serWrite (uid :: pdu ++ leBytes (crc16 (uid :: pdu))), .serFlush,
        .serDir .receive]
      env := s.env.afterNow }, .ok .forwarded) := by
  rw [gwForward, rtuBuildOp_eq, if_neg (by omega)]
  simp only [lnkSendOp_eq]
  rw [if_neg (by simp [leBytes]; omega)]
  rfl

/-- What the examination of the bytes read can do (R268 to R273): wait for more; drop the request, with an error that says
the PDU is too large or the frame too short only beyond the capacity of TCPBUF; or forward it. -/
theorem gwExamine_cases (conn : Conn) (s : State) :
    (gwExamine conn s = (s, .ok .incomplete)) ∨
    (∃ e, gwExamine conn s = ({ s with tcpBuf := [] }, .error e) ∧ (e = .pduTooLarge → 260 < s.tcpBuf.length)) ∨
    (∃ uid pdu, pdu.length ≤ 253 ∧ gwExamine conn s = gwForward conn (be16 s.tcpBuf 0) uid pdu s) := by
  rw [gwExamine]
  by_cases hf : frameComplete s.tcpBuf = true
  · rw [if_pos hf, gwRequest, State.tfaLen, Memory.read_all]
    simp only [frameComplete, Bool.and_eq_true, decide_eq_true_eq] at hf
    have h7 := hf.1
    have hl : 6 + (be16 s.tcpBuf 4).toNat ≤ s.tcpBuf.length := hf.2
    by_cases h2 : be16 s.tcpBuf 2 ≠ 0
    · have : mbapParse s.tcpBuf = .error .invalidMbapHeader := by rw [mbapParse, if_neg (by omega), if_pos h2]
      simp only [this]
      exact .inr (.inl ⟨.invalidMbapHeader, rfl, fun h => nomatch h⟩)
    by_cases h4 : be16 s.tcpBuf 4 = 0
    · have : mbapParse s.tcpBuf = .error .invalidMbapHeader := by
        rw [mbapParse, if_neg (by omega), if_neg h2, if_pos h4]
      simp only [this]
      exact .inr (.inl ⟨.invalidMbapHeader, rfl, fun h => nomatch h⟩)
    have hm : mbapParse s.tcpBuf = .ok (be16 s.tcpBuf 0, s.tcpBuf.getD 6 0, be16 s.tcpBuf 4 - 1) := by
      rw [mbapParse, if_neg (by omega), if_neg h2, if_neg h4]
    have hk := pred_toNat h4
    have hc : Config.PDU_MAX = 253 := rfl
    simp only [hm]
    by_cases hp : Config.PDU_MAX < (be16 s.tcpBuf 4 - 1).toNat
    · simp only [if_pos hp]
      exact .inr (.inl ⟨.pduTooLarge, rfl, fun _ => by omega⟩)
    simp only [if_neg hp]
    have hx : pduExtract s.tcpBuf (be16 s.tcpBuf 4 - 1) =
        .ok (slice s.tcpBuf 7 (7 + (be16 s.tcpBuf 4 - 1).toNat)) := by
      rw [pduExtract, if_neg hp, if_neg (by omega)]
    simp only [hx]
    exact .inr (.inr ⟨_, _, by simp only [slice, List.length_take, List.length_drop]; omega, rfl⟩)
  · rw [if_neg hf]
    by_cases ho : s.tfaLen = Config.TCP_CAP
    · rw [if_pos ho]
      exact .inr (.inl ⟨.frameOverflow, rfl, fun h => nomatch h⟩)
    · rw [if_neg ho]
      exact .inl rfl

/-- What a delivered frame can do (R275, R276): end the cycle with an error, or answer with a PDU of at most 253 bytes. -/
theorem gwReply_cases (f : List Byte) (s : State) :
    (∃ crc e, gwReply f s = ({ s with crc := crc, tcpBuf := [], txn := none, gwState := .idle }, .error e) ∧
      e ≠ .pduTooLarge) ∨
    (∃ crc conn tid uid pdu, pdu.length ≤ 253 ∧ gwReply f s = ({ s with
        crc := crc
        tcpTx := mbapHeader tid uid (BitVec.ofNat 16 pdu.length) ++ pdu
        tcpBuf := []
        txn := none
        gwState := .idle
        trace := s.trace ++ [.tcpSend conn (mbapHeader tid uid (BitVec.ofNat 16 pdu.length) ++ pdu)] },
      .ok .responded)) := by
  rcases rtuParseOp_cases f s with ⟨h, -⟩ | ⟨h, -⟩ | ⟨-, h256, ⟨h, -⟩ | ⟨h, -⟩⟩ <;> rw [gwReply, h]
  · exact .inl ⟨s.crc, _, rfl, fun h => nomatch h⟩
  · exact .inl ⟨s.crc, _, rfl, fun h => nomatch h⟩
  · exact .inl ⟨_, _, rfl, fun h => nomatch h⟩
  · have hp : ((f.take (f.length - 2)).drop 1).length ≤ 253 := by
      simp only [List.length_drop, List.length_take]; omega
    simp only [pduTcprespOp_eq, if_neg (Nat.not_lt.mpr hp)]
    exact .inr ⟨_, _, _, _, _, hp, rfl⟩

/-- Everything a step in Idle can do. -/
theorem gwStepOp_idle_cases (s : State) (h : s.gwState = .idle) :
    (s.env.tcpAccept = none ∧ gwStepOp s = ({ s with env := s.env.afterTcpAccept }, .ok .noConnection)) ∨
    ∃ conn buf env, s.env.tcpAccept = some conn ∧
      buf = s.tcpBuf ++ s.env.afterTcpAccept.tcpRead (260 - s.tfaLen) ∧ env = s.env.afterTcpAccept.afterTcpRead ∧
      ((gwStepOp s = ({ s with tcpBuf := buf, env := env }, .ok .incomplete)) ∨
       (∃ e, gwStepOp s = ({ s with tcpBuf := [], env := env }, .error e) ∧ (e = .pduTooLarge → 260 < buf.length)) ∨
       (∃ uid pdu, pdu.length ≤ 253 ∧ gwStepOp s = ({ s with
            crc := crc16 (uid :: pdu)
            lnkBuf := if s.par.lnkClearOnSend then [] else s.lnkBuf
            lnkDir := .receive
            tcpBuf := buf
            gwState := .awaiting
            txn := some { tid := be16 buf 0, uid, pdu, deadline := env.now + s.cfgRtuTimeoutMs, conn }
            trace := s.trace ++ [.serDir .transmit, .serWrite (uid :: pdu ++ leBytes (crc16 (uid :: pdu))), .serFlush,
              .serDir .receive]
            env := env.afterNow }, .ok .forwarded))) := by
  cases hc : s.env.tcpAccept with
  | none =>
    have hi : gwStepOp s = gwIdleStep s := by simp only [gwStepOp, h]
    exact .inl ⟨rfl, by rw [hi, gwIdleStep, hc]; rfl⟩
  | some conn =>
    refine .inr ⟨conn, _, _, rfl, rfl, rfl, ?_⟩
    rw [gwStepOp_idle s conn h hc]
    rcases gwExamine_cases conn { s with
        tcpBuf := s.tcpBuf ++ s.env.afterTcpAccept.tcpRead (260 - s.tfaLen)
        env := s.env.afterTcpAccept.afterTcpRead } with e | ⟨e, he, hb⟩ | ⟨uid, pdu, hp, he⟩
    · exact .inl e
    · exact .inr (.inl ⟨e, he, hb⟩)
    · exact .inr (.inr ⟨uid, pdu, hp, by rw [he, gwForward_eq _ _ _ _ _ hp]⟩)

/-- Everything a step in AwaitingRtuResponse can do. -/
theorem gwStepOp_awaiting_cases (s : State) (h : s.gwState = .awaiting) :
    ∃ buf last env, (s.lnkLen ≤ s.par.lnkCap → buf.length ≤ s.par.lnkCap) ∧ env = s.env.afterNow.afterSerRead ∧
      ((gwStepOp s = ({ s with lnkBuf := buf, lnkLastRx := last, env := env }, .ok .waiting) ∧
          ∀ x, s.txn = some x → reached s.env.now x.deadline = false) ∨
       (∃ crc e, gwStepOp s = ({ s with
            crc := crc, lnkBuf := buf, lnkLastRx := last, tcpBuf := [], txn := none, gwState := .idle, env := env },
          .error e) ∧ e ≠ .pduTooLarge) ∨
       (∃ crc conn tid uid pdu, pdu.length ≤ 253 ∧ gwStepOp s = ({ s with
            crc := crc
            lnkBuf := buf
            lnkLastRx := last
            tcpTx := mbapHeader tid uid (BitVec.ofNat 16 pdu.length) ++ pdu
            tcpBuf := []
            txn := none
            gwState := .idle
            trace := s.trace ++ [.tcpSend conn (mbapHeader tid uid (BitVec.ofNat 16 pdu.length) ++ pdu)]
            env := env }, .ok .responded))) := by
  obtain ⟨buf, last, e, hb, -⟩ := lnkPollOp_cases s
  refine ⟨buf, last, _, hb, rfl, ?_⟩
  rw [gwStepOp_awaiting s h, gwAwaitStep]
  generalize lnkPollOp s = r at e
  obtain ⟨s1, f⟩ := r
  simp only at e
  subst e
  cases f with
  | none =>
    simp only
    split
    · exact .inr (.inl ⟨s.crc, .rtuTimeout, rfl, fun h => nomatch h⟩)
    · rename_i hd
      refine .inl ⟨rfl, fun x hx => ?_⟩
      simpa [State.txnDeadline, hx] using hd
  | some f =>
    rcases gwReply_cases f { s with lnkBuf := buf, lnkLastRx := last, env := s.env.afterNow.afterSerRead } with
      ⟨crc, e, he, hn⟩ | ⟨crc, conn, tid, uid, pdu, hp, he⟩
    · exact .inr (.inl ⟨crc, e, by simp only [he], hn⟩)
    · exact .inr (.inr ⟨crc, conn, tid, uid, pdu, hp, by simp only [he]⟩)

/-- The loop of GW.POLL keeps every property of states that each GW.STEP keeps. -/
theorem gwLoop_keeps {P : State → Prop} (hP : ∀ s, P s → P (gwStepOp s).1) (n : Nat) (s : State) (h : P s) :
    P (gwLoop n s).1 := by
  induction n generalizing s with
  | zero => exact h
  | succ n ih =>
    simp only [gwLoop]
    split
    · exact hP s h
    · exact ih _ (hP s h)

/-- Where the loop of GW.POLL stops: Idle with an answer, or awaiting without one. -/
theorem gwLoop_stops (n : Nat) (s : State) :
    ((gwLoop (n + 1) s).1.gwState = .idle ∧ ∃ a, (gwLoop (n + 1) s).2 = some a) ∨
    ((gwLoop (n + 1) s).1.gwState = .awaiting ∧ (gwLoop (n + 1) s).2 = none) := by
  induction n generalizing s with
  | zero =>
    rw [gwLoop]
    cases h : (gwStepOp s).1.gwState <;> simp [gwLoop, h]
  | succ n ih =>
    rw [gwLoop]
    cases h : (gwStepOp s).1.gwState
    · simp [h]
    · exact ih _

end Sys2Proof.Machine
end

