-- ==== Sys2Proof/Laws/Exec.lean ====
section
/-!
SUPPORT. Every operation answers a next state (R320), and which: one lemma per constructor, true by definition, so that later
proofs unfold no meaning.
-/

namespace Sys2Proof.Machine

variable (s : State)

theorem exec_crcInit : exec .crcInit s = .next (finish encNone (crcInitOp s)) := rfl
theorem exec_crcByte (b : Byte) : exec (.crcByte b) s = .next (finish encNone (crcByteOp b s)) := rfl
theorem exec_crcCompute (bytes : List Byte) :
    exec (.crcCompute bytes) s = .next (finish encH (crcComputeOp bytes s)) := rfl
theorem exec_crcVerify (bytes : List Byte) (crc : Half) :
    exec (.crcVerify bytes crc) s = .next (finish encBool (crcVerifyOp bytes crc s)) := rfl
theorem exec_crcRead : exec .crcRead s = .next (finish encBB (crcReadOp s)) := rfl
theorem exec_rtuBuild (uid : Byte) (pdu : List Byte) :
    exec (.rtuBuild uid pdu) s = .next (finish encS (rtuBuildOp uid pdu s)) := rfl
theorem exec_rtuParse (frame : List Byte) :
    exec (.rtuParse frame) s = .next (finish encBS (rtuParseOp frame s)) := rfl
theorem exec_lnkPoll : exec .lnkPoll s = .next (finish encOptS ((lnkPollOp s).1.ret (lnkPollOp s).2)) := rfl
theorem exec_lnkSend (bytes : List Byte) : exec (.lnkSend bytes) s = .next (finish encNone (lnkSendOp bytes s)) := rfl
theorem exec_lnkRxbyte (b : Byte) : exec (.lnkRxbyte b) s = .next (finish encNone (lnkRxbyteOp b s)) := rfl
theorem exec_tfaAppend (chunk : List Byte) :
    exec (.tfaAppend chunk) s = .next (finish encH (tfaAppendOp chunk s)) := rfl
theorem exec_tfaIscomplete : exec .tfaIscomplete s = .next (finish encBool (tfaIscompleteOp s)) := rfl
theorem exec_tfaReset : exec .tfaReset s = .next (finish encNone (tfaResetOp s)) := rfl
theorem exec_mbapParse (frame : List Byte) :
    exec (.mbapParse frame) s = .next (finish encHBH (mbapParseOp frame s)) := rfl
theorem exec_mbapBuild (tid : Half) (uid : Byte) (l : Half) :
    exec (.mbapBuild tid uid l) s = .next (finish encS (mbapBuildOp tid uid l s)) := rfl
theorem exec_pduExtract (frame : List Byte) (l : Half) :
    exec (.pduExtract frame l) s = .next (finish encS (pduExtractOp frame l s)) := rfl
theorem exec_pduWrap (uid : Byte) (pdu : List Byte) :
    exec (.pduWrap uid pdu) s = .next (finish encS (pduWrapOp uid pdu s)) := rfl
theorem exec_pduStrip (body : List Byte) : exec (.pduStrip body) s = .next (finish encBS (pduStripOp body s)) := rfl
theorem exec_pduTcpresp (tid : Half) (uid : Byte) (pdu : List Byte) :
    exec (.pduTcpresp tid uid pdu) s = .next (finish encS (pduTcprespOp tid uid pdu s)) := rfl
theorem exec_gwPoll : exec .gwPoll s = .next (gwPollRun s) := rfl
theorem exec_gwStep : exec .gwStep s = .next (finish (fun o => encB (GwOutcome.code o)) (gwStepOp s)) := rfl
theorem exec_cfgSet (idx : Byte) (value : Millis) :
    exec (.cfgSet idx value) s = .next (finish encNone (cfgSetOp idx value s)) := rfl
theorem exec_sysReset : exec .sysReset s = .next (finish encNone (sysResetOp s)) := rfl

/-- No operation faults or is refused. -/
theorem exec_next (i : Instr) (s : State) : ∃ t, exec i s = .next t := by cases i <;> exact ⟨_, rfl⟩

/-- The answer of an operation: one status of 0 to 7, and nothing behind it unless it is OK (R117, R320). -/
theorem Answer.bytes_form {α : Type} (enc : α → List Byte) (a : Answer α) :
    ∃ status result, a.bytes enc = status :: result ∧ status.toNat ≤ 7 ∧ (status ≠ 0 → result = []) := by
  cases a with
  | ok r => exact ⟨0, enc r, rfl, by decide, fun h => absurd rfl h⟩
  | error e => exact ⟨e.code, [], rfl, by cases e <;> decide, fun _ => rfl⟩

end Sys2Proof.Machine
end

