-- ==== Sys2Proof/Laws/PerInstr.lean ====
section
/-!
SUPPORT. The per-instruction family CommandShape: a command is the operation byte of R120, with bits 7:5 zero (R115), and
the operand bytes the format's letters ask for (R116).
-/

namespace Sys2Proof.Laws.CommandShape

open Sys2Proof.Machine

/-- How many bytes the letters of a format take, given the byte strings of its `S` operands, in order (R116). -/
def formatLength : List Letter → List (List Byte) → Nat
  | [], _ => 0
  | .B :: ls, ss => 1 + formatLength ls ss
  | .H :: ls, ss => 2 + formatLength ls ss
  | .W :: ls, ss => 4 + formatLength ls ss
  | .S :: ls, s :: ss => 2 + s.length + formatLength ls ss
  | .S :: ls, [] => 2 + formatLength ls []

/-- The byte strings of an operation's `S` operands. -/
def strings : Instr → List (List Byte)
  | .crcInit | .crcByte _ | .crcRead | .lnkPoll | .lnkRxbyte _ | .tfaIscomplete | .tfaReset | .mbapBuild _ _ _
  | .gwPoll | .gwStep | .cfgSet _ _ | .sysReset => []
  | .crcCompute s | .crcVerify s _ | .rtuBuild _ s | .rtuParse s | .lnkSend s | .tfaAppend s | .mbapParse s
  | .pduExtract s _ | .pduWrap _ s | .pduStrip s | .pduTcpresp _ _ s => [s]

/-- The operation byte is below 0x20 and the command is as long as its format says. -/
def Statement (i : Instr) : Prop :=
  i.opcode.toNat < 32 ∧ (encode i).length = 1 + formatLength (formatOf i.opcode.toNat) (strings i)

/-- The length of a command follows from that of its operand bytes. -/
theorem of_operands {i : Instr} (h : i.opcode.toNat < 32)
    (hl : i.operandBytes.length = formatLength (formatOf i.opcode.toNat) (strings i)) : Statement i :=
  ⟨h, by simp [encode, hl, Nat.add_comm]⟩

theorem crcInit : Statement .crcInit :=
  of_operands (by decide) rfl

theorem crcByte (b : Byte) : Statement (.crcByte b) :=
  of_operands (by simp [Instr.opcode]) rfl

theorem crcCompute (bytes : List Byte) : Statement (.crcCompute bytes) :=
  of_operands (by simp [Instr.opcode])
    (by simp [Instr.opcode, Instr.operandBytes, formatOf, formatLength, strings]; try omega)

theorem crcVerify (bytes : List Byte) (crc : Half) : Statement (.crcVerify bytes crc) :=
  of_operands (by simp [Instr.opcode])
    (by simp [Instr.opcode, Instr.operandBytes, formatOf, formatLength, strings]; try omega)

theorem crcRead : Statement .crcRead :=
  of_operands (by decide) rfl

theorem rtuBuild (unitId : Byte) (pdu : List Byte) : Statement (.rtuBuild unitId pdu) :=
  of_operands (by simp [Instr.opcode])
    (by simp [Instr.opcode, Instr.operandBytes, formatOf, formatLength, strings]; try omega)

theorem rtuParse (frame : List Byte) : Statement (.rtuParse frame) :=
  of_operands (by simp [Instr.opcode])
    (by simp [Instr.opcode, Instr.operandBytes, formatOf, formatLength, strings]; try omega)

theorem lnkPoll : Statement .lnkPoll :=
  of_operands (by decide) rfl

theorem lnkSend (bytes : List Byte) : Statement (.lnkSend bytes) :=
  of_operands (by simp [Instr.opcode])
    (by simp [Instr.opcode, Instr.operandBytes, formatOf, formatLength, strings]; try omega)

theorem lnkRxbyte (b : Byte) : Statement (.lnkRxbyte b) :=
  of_operands (by simp [Instr.opcode]) rfl

theorem tfaAppend (chunk : List Byte) : Statement (.tfaAppend chunk) :=
  of_operands (by simp [Instr.opcode])
    (by simp [Instr.opcode, Instr.operandBytes, formatOf, formatLength, strings]; try omega)

theorem tfaIscomplete : Statement .tfaIscomplete :=
  of_operands (by decide) rfl

theorem tfaReset : Statement .tfaReset :=
  of_operands (by decide) rfl

theorem mbapParse (frame : List Byte) : Statement (.mbapParse frame) :=
  of_operands (by simp [Instr.opcode])
    (by simp [Instr.opcode, Instr.operandBytes, formatOf, formatLength, strings]; try omega)

theorem mbapBuild (tid : Half) (unitId : Byte) (plen : Half) : Statement (.mbapBuild tid unitId plen) :=
  of_operands (by simp [Instr.opcode]) rfl

theorem pduExtract (frame : List Byte) (plen : Half) : Statement (.pduExtract frame plen) :=
  of_operands (by simp [Instr.opcode])
    (by simp [Instr.opcode, Instr.operandBytes, formatOf, formatLength, strings]; try omega)

theorem pduWrap (unitId : Byte) (pdu : List Byte) : Statement (.pduWrap unitId pdu) :=
  of_operands (by simp [Instr.opcode])
    (by simp [Instr.opcode, Instr.operandBytes, formatOf, formatLength, strings]; try omega)

theorem pduStrip (body : List Byte) : Statement (.pduStrip body) :=
  of_operands (by simp [Instr.opcode])
    (by simp [Instr.opcode, Instr.operandBytes, formatOf, formatLength, strings]; try omega)

theorem pduTcpresp (tid : Half) (unitId : Byte) (pdu : List Byte) : Statement (.pduTcpresp tid unitId pdu) :=
  of_operands (by simp [Instr.opcode])
    (by simp [Instr.opcode, Instr.operandBytes, formatOf, formatLength, strings]; try omega)

theorem gwPoll : Statement .gwPoll :=
  of_operands (by decide) rfl

theorem gwStep : Statement .gwStep :=
  of_operands (by decide) rfl

theorem cfgSet (idx : Byte) (value : Millis) : Statement (.cfgSet idx value) :=
  of_operands (by simp [Instr.opcode]) rfl

theorem sysReset : Statement .sysReset :=
  of_operands (by decide) rfl

end Sys2Proof.Laws.CommandShape
end

