-- ==== Sys2Proof/Laws/Time.lean ====
section
/-!
SUPPORT. Time under the premise of R18: a sample is not before the one before it, a read of the environment keeps the
premise, and samples that pass a deadline do not jump over it.
-/

namespace Sys2Proof.Machine

/-- Under the premise, the next sample is not before the last one, by less than 2^31 (R18). -/
theorem Env.NowMonotone.now_reached {e : Env} (h : e.NowMonotone) {t : Millis} (ht : e.lastNow = some t) :
    reached e.now t = true := by
  unfold Env.now
  split
  · rename_i n q hq
    simp only [Env.NowMonotone, ht, hq, Option.toList_some, List.singleton_append, List.isChain_cons_cons] at h
    exact h.1
  · have hlt := (Config.freeNowAdvance e.drawn).isLt
    rw [Env.unplacedNow, ht, reached_iff]
    have : t + BitVec.ofNat 32 (Config.freeNowAdvance e.drawn).val - t =
        BitVec.ofNat 32 (Config.freeNowAdvance e.drawn).val := by rw [BitVec.add_comm, BitVec.add_sub_cancel]
    rw [this, BitVec.toNat_ofNat, Nat.mod_eq_of_lt (by omega)]
    exact hlt

/-- A sample of NOW keeps the premise. -/
theorem Env.NowMonotone.afterNow {e : Env} (h : e.NowMonotone) : e.afterNow.NowMonotone := by
  unfold Env.NowMonotone
  rw [Env.afterNow_lastNow, Env.afterNow_nowQ]
  cases hq : e.nowQ with
  | nil => simp
  | cons n q =>
    have hn : e.now = n := by simp [Env.now, hq]
    rw [hn, List.tail_cons]
    simp only [Env.NowMonotone, hq] at h
    exact h.right_of_append

/-- Reads of the collaborators keep the premise. -/
theorem Env.NowMonotone.afterSerRead {e : Env} (h : e.NowMonotone) : e.afterSerRead.NowMonotone := by
  simpa [Env.NowMonotone] using h

theorem Env.NowMonotone.afterTcpAccept {e : Env} (h : e.NowMonotone) : e.afterTcpAccept.NowMonotone := by
  simpa [Env.NowMonotone] using h

theorem Env.NowMonotone.afterTcpRead {e : Env} (h : e.NowMonotone) : e.afterTcpRead.NowMonotone := by
  simpa [Env.NowMonotone] using h

/-- With instants less than 2^31 apart `reached` is the comparison of the times that have passed (R24, R377). -/
theorem reached_iff_passed (start timeout : Millis) (d : Nat) (ht : timeout.toNat < 2147483648)
    (hd : d < timeout.toNat + 2147483648) :
    reached (start + BitVec.ofNat 32 d) (start + timeout) = true ↔ timeout.toNat ≤ d := by
  rw [reached_iff]
  rw [BitVec.toNat_sub, BitVec.toNat_add, BitVec.toNat_add, BitVec.toNat_ofNat]
  have := start.isLt
  omega

/-- Samples each less than 2^31 after the one before do not jump over a deadline: when as much time passes as is left to it,
one of them has reached it (R18, R280). -/
theorem exists_reached_of_timePassed (d start : Millis) (q : List Millis) (hne : q ≠ [])
    (hc : List.IsChain (fun earlier later => reached later earlier = true) (start :: q))
    (hp : (d - start).toNat ≤ timePassed start q) : ∃ t ∈ q, reached t d = true := by
  induction q generalizing start with
  | nil => exact absurd rfl hne
  | cons t q ih =>
    rw [List.isChain_cons_cons, reached_iff] at hc
    by_cases hr : reached t d = true
    · exact ⟨t, List.mem_cons_self, hr⟩
    have hr' : ¬ (t - d).toNat < 2147483648 := fun h => hr (reached_iff.2 h)
    have hlt : (t - start).toNat < (d - start).toNat ∧ (d - t).toNat = (d - start).toNat - (t - start).toNat := by
      have h1 := hc.1
      have e1 := BitVec.toNat_sub t d
      have e2 := BitVec.toNat_sub d start
      have e3 := BitVec.toNat_sub t start
      have e4 := BitVec.toNat_sub d t
      have := t.isLt
      have := d.isLt
      have := start.isLt
      omega
    simp only [timePassed, elapsed] at hp
    by_cases hq : q = []
    · subst hq
      simp only [timePassed] at hp
      omega
    · obtain ⟨u, hu, hur⟩ := ih t hq hc.2 (by omega)
      exact ⟨u, List.mem_cons_of_mem _ hu, hur⟩

end Sys2Proof.Machine
end

