-- ==== Sys2Proof/Tests/Slice0.lean ====
section
/-!
SUPPORT. The model's own tests and the witnesses of the statements. Every expected value is taken from
spec/95_test_vectors.md, whose vector each test names; each test runs one step. A witness meets the hypotheses of the
statement it is named after.
-/

namespace Sys2Proof.Tests

open Sys2Proof Sys2Proof.Machine

/-! ## WellFormed: one ill-formed operation for each check -/

/-- One byte more than the length prefix of the letter S can say. -/
def tooLong : List Byte := List.replicate 65536 0

theorem tooLong_unfit : fitsPrefix tooLong = false := by
  rw [fitsPrefix, tooLong, List.length_replicate]; decide

theorem test_ill_formed_crcCompute : (Instr.crcCompute tooLong).wf = false := tooLong_unfit
theorem test_ill_formed_crcVerify : (Instr.crcVerify tooLong 0).wf = false := tooLong_unfit
theorem test_ill_formed_rtuBuild : (Instr.rtuBuild 0 tooLong).wf = false := tooLong_unfit
theorem test_ill_formed_rtuParse : (Instr.rtuParse tooLong).wf = false := tooLong_unfit
theorem test_ill_formed_lnkSend : (Instr.lnkSend tooLong).wf = false := tooLong_unfit
theorem test_ill_formed_tfaAppend : (Instr.tfaAppend tooLong).wf = false := tooLong_unfit
theorem test_ill_formed_mbapParse : (Instr.mbapParse tooLong).wf = false := tooLong_unfit
theorem test_ill_formed_pduExtract : (Instr.pduExtract tooLong 0).wf = false := tooLong_unfit
theorem test_ill_formed_pduWrap : (Instr.pduWrap 0 tooLong).wf = false := tooLong_unfit
theorem test_ill_formed_pduStrip : (Instr.pduStrip tooLong).wf = false := tooLong_unfit
theorem test_ill_formed_pduTcpresp : (Instr.pduTcpresp 0 0 tooLong).wf = false := tooLong_unfit

/-! ## Decoding: the command of every constructor, as the spec prints it, and the refusals of section 2.9 -/

/-- P4. -/
theorem test_decode_crcInit : decode [0x00] = .ok .crcInit := by decide

/-- P4. -/
theorem test_decode_crcByte : decode [0x01, 0x0A] = .ok (.crcByte 0x0A) := by decide

/-- V-SRC-1. -/
theorem test_decode_crcCompute :
    decode [0x02, 0x00, 0x06, 0x01, 0x03, 0x00, 0x00, 0x00, 0x0A] =
      .ok (.crcCompute [0x01, 0x03, 0x00, 0x00, 0x00, 0x0A]) := by decide

/-- V-DEC-10. -/
theorem test_decode_crcVerify :
    decode [0x03, 0x00, 0x06, 0x01, 0x03, 0x00, 0x00, 0x00, 0x0A, 0xCD, 0xC5] =
      .ok (.crcVerify [0x01, 0x03, 0x00, 0x00, 0x00, 0x0A] 0xCDC5) := by decide

/-- P4. -/
theorem test_decode_crcRead : decode [0x04] = .ok .crcRead := by decide

/-- V-RTU-1. -/
theorem test_decode_rtuBuild :
    decode [0x08, 0x11, 0x00, 0x05, 0x03, 0x00, 0x6B, 0x00, 0x03] =
      .ok (.rtuBuild 0x11 [0x03, 0x00, 0x6B, 0x00, 0x03]) := by decide

/-- V-RTU-2. -/
theorem test_decode_rtuParse :
    decode [0x09, 0x00, 0x0B, 0x11, 0x03, 0x06, 0xAE, 0x41, 0x56, 0x52, 0x43, 0x68, 0x49, 0xB3] =
      .ok (.rtuParse [0x11, 0x03, 0x06, 0xAE, 0x41, 0x56, 0x52, 0x43, 0x68, 0x49, 0xB3]) := by decide

/-- V-LNK-3. -/
theorem test_decode_lnkPoll : decode [0x0C] = .ok .lnkPoll := by decide

/-- V-LNK-9. -/
theorem test_decode_lnkSend :
    decode [0x0D, 0x00, 0x08, 0x11, 0x03, 0x00, 0x6B, 0x00, 0x03, 0x76, 0x87] =
      .ok (.lnkSend [0x11, 0x03, 0x00, 0x6B, 0x00, 0x03, 0x76, 0x87]) := by decide

/-- V-LNK-1. -/
theorem test_decode_lnkRxbyte : decode [0x0E, 0x11] = .ok (.lnkRxbyte 0x11) := by decide

/-- V-TFA-1. -/
theorem test_decode_tfaAppend :
    decode [0x10, 0x00, 0x07, 0x00, 0x01, 0x00, 0x00, 0x00, 0x06, 0x11] =
      .ok (.tfaAppend [0x00, 0x01, 0x00, 0x00, 0x00, 0x06, 0x11]) := by decide

/-- V-TFA-4. -/
theorem test_decode_tfaIscomplete : decode [0x11] = .ok .tfaIscomplete := by decide

/-- V-TFA-10. -/
theorem test_decode_tfaReset : decode [0x12] = .ok .tfaReset := by decide

/-- V-MBAP-1. -/
theorem test_decode_mbapParse :
    decode [0x14, 0x00, 0x0C, 0x00, 0x01, 0x00, 0x00, 0x00, 0x06, 0x11, 0x03, 0x00, 0x6B, 0x00, 0x03] =
      .ok (.mbapParse [0x00, 0x01, 0x00, 0x00, 0x00, 0x06, 0x11, 0x03, 0x00, 0x6B, 0x00, 0x03]) := by decide

/-- V-MBAP-9. -/
theorem test_decode_mbapBuild :
    decode [0x15, 0x00, 0x01, 0x11, 0x00, 0x08] =
      .ok (.mbapBuild 0x0001 0x11 8) := by decide

/-- V-PDU-1. -/
theorem test_decode_pduExtract :
    decode [0x18, 0x00, 0x0C, 0x00, 0x01, 0x00, 0x00, 0x00, 0x06, 0x11, 0x03, 0x00, 0x6B, 0x00, 0x03, 0x00, 0x05] =
      .ok (.pduExtract [0x00, 0x01, 0x00, 0x00, 0x00, 0x06, 0x11, 0x03, 0x00, 0x6B, 0x00, 0x03] 5) := by decide

/-- V-PDU-6. -/
theorem test_decode_pduWrap :
    decode [0x19, 0x11, 0x00, 0x05, 0x03, 0x00, 0x6B, 0x00, 0x03] =
      .ok (.pduWrap 0x11 [0x03, 0x00, 0x6B, 0x00, 0x03]) := by decide

/-- V-PDU-9. -/
theorem test_decode_pduStrip :
    decode [0x1A, 0x00, 0x09, 0x11, 0x03, 0x06, 0xAE, 0x41, 0x56, 0x52, 0x43, 0x68] =
      .ok (.pduStrip [0x11, 0x03, 0x06, 0xAE, 0x41, 0x56, 0x52, 0x43, 0x68]) := by decide

/-- V-PDU-13. -/
theorem test_decode_pduTcpresp :
    decode [0x1B, 0x00, 0x01, 0x11, 0x00, 0x08, 0x03, 0x06, 0xAE, 0x41, 0x56, 0x52, 0x43, 0x68] =
      .ok (.pduTcpresp 0x0001 0x11 [0x03, 0x06, 0xAE, 0x41, 0x56, 0x52, 0x43, 0x68]) := by decide

/-- 2.7. -/
theorem test_decode_gwPoll : decode [0x1C] = .ok .gwPoll := by decide

/-- P1. -/
theorem test_decode_gwStep : decode [0x1D] = .ok .gwStep := by decide

/-- V-SYS-1. -/
theorem test_decode_cfgSet : decode [0x1E, 0x01, 0x00, 0x00, 0x03, 0xE8] = .ok (.cfgSet 0x01 1000) := by decide

/-- V-SYS-8. -/
theorem test_decode_sysReset : decode [0x1F] = .ok .sysReset := by decide

/-- V-DEC-1, V-DEC-2. -/
theorem test_decode_reserved :
    [[0x05], [0x06], [0x07], [0x0A], [0x0B], [0x0F], [0x13], [0x16], [0x17]].map decode =
      List.replicate 9 (.error .reservedOpsel) := by decide

/-- V-DEC-3, V-DEC-4. -/
theorem test_decode_high_bits : [[0x20], [0x9F]].map decode = List.replicate 2 (.error .highBitsSet) := by decide

/-- V-DEC-5, V-DEC-8, V-DEC-11. -/
theorem test_decode_short :
    [[0x01], [0x03, 0x00, 0x01, 0xAA, 0xCD], [0x1E, 0x01, 0x00, 0x00, 0x03]].map decode =
      List.replicate 3 (.error .tooShort) := by decide

/-- V-DEC-6. -/
theorem test_decode_left_over : decode [0x00, 0x00] = .error .bytesLeftOver := by decide

/-- V-DEC-7. -/
theorem test_decode_bad_prefix : decode [0x02, 0x00, 0x03, 0x01, 0x02] = .error .badLengthPrefix := by decide

/-! ## The states of the tests -/

/-- The start state of the vectors: reset with `RTU_TIMEOUT_MS_RESET = 1000` (spec/95_test_vectors.md, Conventions). -/
def vec : State :=
  { State.reset with cfgRtuTimeoutMs := 1000, par := { State.reset.par with rtuTimeoutMsReset := 1000 } }

/-- A state with the answers of the environment placed; the last sample of NOW is the state's. -/
def given (nowQ : List Millis) (rxQ : List (List Byte)) (acceptQ : List (Option Conn)) (readQ : List (List Byte))
    (s : State) : State :=
  { s with env := { nowQ, rxQ, acceptQ, readQ, drawn := 0, lastNow := s.env.lastNow } }

/-- The state an operation answers. -/
def run (i : Instr) (s : State) : Option State :=
  match exec i s with
  | .next t => some t
  | .fault _ => none
  | .refused _ => none

/-- What one step answers to a command. -/
def issue (command : List Byte) (s : State) : Option (List (List Byte)) :=
  match step { s with cmdPort := [command] } with
  | .next t => some t.resPort
  | .fault _ => none
  | .refused _ => none

/-- The request of the end-to-end scenario (V-SRC-6). -/
def req : List Byte := [0x00, 0x01, 0x00, 0x00, 0x00, 0x06, 0x11, 0x03, 0x00, 0x6B, 0x00, 0x03]

/-- The RTU reply of the end-to-end scenario (V-SRC-6). -/
def rep : List Byte := [0x11, 0x03, 0x06, 0xAE, 0x41, 0x56, 0x52, 0x43, 0x68, 0x49, 0xB3]

/-- The transaction of program P1 after its first step. -/
def txn1 : Txn where
  tid := 0x0001
  uid := 0x11
  pdu := [0x03, 0x00, 0x6B, 0x00, 0x03]
  deadline := 2010
  conn := 1

/-- Program P1 after its first step, which took a sample of NOW, 1010. -/
def awaiting : State :=
  { vec with
    crc := 0x8776, tcpBuf := req, gwState := .awaiting, txn := some txn1, env := { vec.env with lastNow := some 1010 } }

/-! ## One step of every operation -/

/-- R55. -/
theorem test_reset :
    (State.reset.crc, State.reset.lnkDir, State.reset.gwState, State.reset.txn, State.reset.cfgSilenceMs) =
      (0xFFFF, .receive, .idle, none, 5) := by decide

/-- V-CRC-20. -/
theorem test_crcInit :
    (run .crcInit { vec with crc := 0x1234 }).map (fun t => (t.crc, t.resPort)) = some (0xFFFF, [[0x00]]) := by decide

/-- V-CRC-21. -/
theorem test_crcByte :
    (run (.crcByte 0x00) vec).map (fun t => (t.crc, t.resPort)) = some (0x40BF, [[0x00]]) := by decide +kernel

/-- V-CRC-23. -/
theorem test_crcByte_zero_register :
    (run (.crcByte 0x01) { vec with crc := 0x0000 }).map (fun t => t.crc) = some 0xC0C1 := by decide +kernel

/-- V-SRC-1. -/
theorem test_crcCompute :
    issue [0x02, 0x00, 0x06, 0x01, 0x03, 0x00, 0x00, 0x00, 0x0A] vec = some [[0x00, 0xCD, 0xC5]] := by decide +kernel

/-- V-CRC-14. -/
theorem test_crcCompute_residue :
    (run (.crcCompute [0x01, 0x03, 0x00, 0x00, 0x00, 0x0A, 0xC5, 0xCD]) vec).map (fun t => t.crc) =
      some 0x0000 := by decide +kernel

/-- V-CRC-17. -/
theorem test_crcVerify_swapped :
    (run (.crcVerify [0x01, 0x03, 0x00, 0x00, 0x00, 0x0A] 0xC5CD) vec).map (fun t => (t.crc, t.resPort)) =
      some (0xCDC5, [[0x00, 0x00]]) := by decide +kernel

/-- V-DEC-10. -/
theorem test_crcVerify_match :
    issue [0x03, 0x00, 0x06, 0x01, 0x03, 0x00, 0x00, 0x00, 0x0A, 0xCD, 0xC5] vec = some [[0x00, 0x01]] := by
  decide +kernel

/-- V-CRC-24. -/
theorem test_crcRead :
    (run .crcRead { vec with crc := 0x8776 }).map (fun t => t.resPort) = some [[0x00, 0x76, 0x87]] := by decide

/-- V-RTU-1. -/
theorem test_rtuBuild :
    issue [0x08, 0x11, 0x00, 0x05, 0x03, 0x00, 0x6B, 0x00, 0x03] vec =
      some [[0x00, 0x00, 0x08, 0x11, 0x03, 0x00, 0x6B, 0x00, 0x03, 0x76, 0x87]] := by decide +kernel

/-- V-RTU-6. -/
theorem test_rtuBuild_oversized :
    (run (.rtuBuild 0x11 (List.replicate 254 0)) vec).map (fun t => (t.crc, t.resPort)) = some (0xFFFF, [[0x05]]) := by
  decide +kernel

/-- V-RTU-2. -/
theorem test_rtuParse :
    issue [0x09, 0x00, 0x0B, 0x11, 0x03, 0x06, 0xAE, 0x41, 0x56, 0x52, 0x43, 0x68, 0x49, 0xB3] vec =
      some [[0x00, 0x11, 0x00, 0x08, 0x03, 0x06, 0xAE, 0x41, 0x56, 0x52, 0x43, 0x68]] := by decide +kernel

/-- V-RTU-3. -/
theorem test_rtuParse_mismatch :
    (run (.rtuParse [0x11, 0x03, 0x06, 0xAE, 0x41, 0x56, 0x52, 0x43, 0x68, 0x49, 0xB2]) vec).map
        (fun t => (t.crc, t.resPort)) = some (0xB349, [[0x03]]) := by decide +kernel

/-- V-LNK-1. -/
theorem test_lnkRxbyte :
    (run (.lnkRxbyte 0x11) (given [100] [] [] [] vec)).map (fun t => (t.lnkBuf, t.lnkLastRx, t.resPort)) =
      some ([0x11], 100, [[0x00]]) := by decide

/-- V-LNK-5. -/
theorem test_lnkRxbyte_full :
    (run (.lnkRxbyte 0xAA) (given [50] [] [] [] { vec with lnkBuf := List.replicate 256 0, lnkLastRx := 40 })).map
        (fun t => (t.lnkBuf, t.lnkLastRx, t.resPort)) = some ([], 40, [[0x04]]) := by decide +kernel

/-- V-LNK-3. -/
theorem test_lnkPoll_not_longer :
    (run .lnkPoll (given [105] [[]] [] [] { vec with lnkBuf := [0x11, 0x03, 0x00, 0x6B, 0x00, 0x03, 0x76, 0x87], lnkLastRx := 100 })).map
        (fun t => (t.lnkLen, t.resPort)) = some (8, [[0x00, 0x00]]) := by decide

/-- V-LNK-13. -/
theorem test_lnkPoll_wraps :
    (run .lnkPoll (given [4] [[]] [] [] { vec with lnkBuf := [0x11, 0x03, 0x06, 0xAE], lnkLastRx := 0xFFFFFFFE })).map
        (fun t => (t.lnkLen, t.resPort)) = some (0, [[0x00, 0x01, 0x00, 0x04, 0x11, 0x03, 0x06, 0xAE]]) := by decide

/-- V-LNK-9. -/
theorem test_lnkSend :
    (run (.lnkSend [0x11, 0x03, 0x00, 0x6B, 0x00, 0x03, 0x76, 0x87]) vec).map (fun t => (t.lnkDir, t.trace)) =
      some (.receive, [.serDir .transmit, .serWrite [0x11, 0x03, 0x00, 0x6B, 0x00, 0x03, 0x76, 0x87], .serFlush,
        .serDir .receive]) := by decide

/-- V-LNK-11. -/
theorem test_lnkSend_too_long :
    (run (.lnkSend (List.replicate 257 0)) vec).map (fun t => (t.trace, t.resPort)) = some ([], [[0x04]]) := by
  decide +kernel

/-- V-TFA-1. -/
theorem test_tfaAppend :
    issue [0x10, 0x00, 0x07, 0x00, 0x01, 0x00, 0x00, 0x00, 0x06, 0x11] vec = some [[0x00, 0x00, 0x07]] := by decide

/-- V-TFA-5. -/
theorem test_tfaAppend_full :
    (run (.tfaAppend (List.replicate 20 0)) { vec with tcpBuf := List.replicate 250 0 }).map
        (fun t => (t.tfaLen, t.resPort)) = some (260, [[0x00, 0x00, 0x0A]]) := by decide +kernel

/-- V-TFA-13. -/
theorem test_tfaIscomplete_no_wrap :
    (run .tfaIscomplete { vec with tcpBuf := [0x00, 0x01, 0x00, 0x00, 0xFF, 0xFF, 0x11] }).map (fun t => t.resPort) =
      some [[0x00, 0x00]] := by decide +kernel

/-- V-TFA-4. -/
theorem test_tfaIscomplete :
    (run .tfaIscomplete { vec with tcpBuf := req }).map (fun t => t.resPort) = some [[0x00, 0x01]] := by decide +kernel

/-- V-TFA-10. -/
theorem test_tfaReset :
    (run .tfaReset { vec with tcpBuf := req }).map (fun t => (t.tfaLen, t.resPort)) = some (0, [[0x00]]) := by decide

/-- V-MBAP-7. -/
theorem test_mbapParse :
    (run (.mbapParse [0x12, 0x34, 0x00, 0x00, 0xFF, 0xFF, 0x56]) vec).map (fun t => t.resPort) =
      some [[0x00, 0x12, 0x34, 0x56, 0xFF, 0xFE]] := by decide +kernel

/-- V-MBAP-3. -/
theorem test_mbapParse_protocol :
    (run (.mbapParse [0x00, 0x01, 0x01, 0x00, 0x00, 0x06, 0x11, 0x03, 0x00, 0x6B, 0x00, 0x03]) vec).map
        (fun t => t.resPort) = some [[0x01]] := by decide +kernel

/-- V-MBAP-9. -/
theorem test_mbapBuild :
    (run (.mbapBuild 0x0001 0x11 8) vec).map (fun t => (t.tcpTx, t.resPort)) =
      some ([0x00, 0x01, 0x00, 0x00, 0x00, 0x09, 0x11], [[0x00, 0x00, 0x07, 0x00, 0x01, 0x00, 0x00, 0x00, 0x09, 0x11]]) := by
  decide +kernel

/-- V-MBAP-11. -/
theorem test_mbapBuild_oversized :
    (run (.mbapBuild 0x0001 0x11 254) vec).map (fun t => (t.tcpTx, t.resPort)) = some ([], [[0x05]]) := by
  decide +kernel

/-- V-PDU-2. -/
theorem test_pduExtract_trailing :
    (run (.pduExtract (req ++ [0x00, 0x02, 0x00, 0x00]) 5) vec).map (fun t => t.resPort) =
      some [[0x00, 0x00, 0x05, 0x03, 0x00, 0x6B, 0x00, 0x03]] := by decide +kernel

/-- V-PDU-4. -/
theorem test_pduExtract_order :
    (run (.pduExtract [0x00, 0x01, 0x00, 0x00, 0x00, 0x06, 0x11] 254) vec).map (fun t => t.resPort) = some [[0x05]] := by
  decide +kernel

/-- V-PDU-6. -/
theorem test_pduWrap :
    issue [0x19, 0x11, 0x00, 0x05, 0x03, 0x00, 0x6B, 0x00, 0x03] vec =
      some [[0x00, 0x00, 0x06, 0x11, 0x03, 0x00, 0x6B, 0x00, 0x03]] := by decide +kernel

/-- V-PDU-11. -/
theorem test_pduStrip_unit_only :
    (run (.pduStrip [0x07]) vec).map (fun t => t.resPort) = some [[0x00, 0x07, 0x00, 0x00]] := by decide +kernel

/-- V-PDU-10. -/
theorem test_pduStrip_empty :
    (run (.pduStrip []) vec).map (fun t => t.resPort) = some [[0x06]] := by decide +kernel

/-- V-PDU-16. -/
theorem test_pduTcpresp :
    (run (.pduTcpresp 0x0001 0x11 [0x83, 0x02]) vec).map (fun t => t.tcpTx) =
      some [0x00, 0x01, 0x00, 0x00, 0x00, 0x03, 0x11, 0x83, 0x02] := by decide +kernel

/-- P1, step 1. -/
theorem test_gwStep_forwards :
    run .gwStep (given [1010] [] [some 1] [req] vec) = some { awaiting with
      trace := [.serDir .transmit, .serWrite [0x11, 0x03, 0x00, 0x6B, 0x00, 0x03, 0x76, 0x87], .serFlush,
        .serDir .receive]
      resPort := [[0x00, 0x02]] } := by decide +kernel

/-- V-GW-12, V-GW-13: the deadline of P1 at 2010, one before it and on it. -/
theorem test_gwStep_times_out :
    [2009, 2010].map (fun n => (run .gwStep (given [n] [[]] [] [] awaiting)).map (fun t => (t.gwState, t.resPort))) =
      [some (.awaiting, [[0x00, 0x03]]), some (.idle, [[0x02]])] := by decide +kernel

/-- P1 as one GW.POLL. -/
theorem test_gwPoll :
    (run .gwPoll (given [1010, 1012, 1020, 1022, 1027, 1028] [[], rep.take 5, rep.drop 5, [], []] [some 1] [req] vec)).map
        (fun t => (t.crc, t.lnkLastRx, t.tcpTx, t.resPort)) =
      some (0xB349, 1022, [0x00, 0x01, 0x00, 0x00, 0x00, 0x09, 0x11, 0x03, 0x06, 0xAE, 0x41, 0x56, 0x52, 0x43, 0x68],
        [[0x00, 0x04]]) := by decide +kernel

/-- P3 as one GW.POLL. -/
theorem test_gwPoll_corrupted :
    (run .gwPoll (given [500, 510, 516] [rep.dropLast ++ [0xB2], []] [some 1] [req] vec)).map
        (fun t => (t.crc, t.tfaLen, t.gwState, t.resPort)) = some (0xB349, 0, .idle, [[0x03]]) := by decide +kernel

/-- V-SYS-5. -/
theorem test_cfgSet_illegal :
    (run (.cfgSet 0x00 0x80000000) vec).map (fun t => (t.cfgSilenceMs, t.resPort)) = some (5, [[0x07]]) := by decide

/-- V-SYS-9. -/
theorem test_cfgSet_deadline_stays :
    (run (.cfgSet 0x01 50) awaiting).map (fun t => (t.cfgRtuTimeoutMs, t.txn.map (fun x => x.deadline))) =
      some (50, some 2010) := by decide

/-- V-SYS-8: the block is as after reset; the last sample of NOW is the environment's and stays. -/
theorem test_sysReset :
    run .sysReset { awaiting with crc := 0xCDC5, lnkBuf := [0x11, 0x03, 0x06, 0xAE, 0x41, 0x56, 0x52, 0x43, 0x68], cfgSilenceMs := 2 } =
      some { vec with resPort := [[0x00]], env := awaiting.env } := by decide +kernel

/-- V-DEC-4, V-DEC-6. -/
theorem test_illegal_command :
    [[0x9F], [0x00, 0x00]].map (fun c => issue c { vec with crc := 0x1234 }) = [some [[0x07]], some [[0x07]]] := by
  decide

/-- P5, step 2. -/
theorem test_gwStep_overflow :
    (run .gwStep (given [] [] [some 1] [List.replicate 160 0]
        { vec with tcpBuf := [0x00, 0x07, 0x00, 0x00, 0x00, 0xFF, 0x11, 0x10] ++ List.replicate 92 0 })).map
        (fun t => (t.tfaLen, t.gwState, t.trace, t.resPort)) = some (0, .idle, [], [[0x04]]) := by decide +kernel

/-! ## Witnesses: for every statement with hypotheses, a state and operands that meet them, clause by clause -/

/-- The reset state of the vectors meets the invariant. -/
theorem vec_inv : vec.Inv := by decide

/-- So does the state of P1 after its first step. -/
theorem awaiting_inv : awaiting.Inv := by decide

theorem witness_DecodeOfEncode :
    (Instr.crcCompute []).wf = true ∧ (Instr.rtuBuild 0xFF (List.replicate 65535 0)).wf = true :=
  ⟨by decide, by rw [Instr.wf, fitsPrefix, List.length_replicate]; decide⟩

theorem witness_EncodeOfDecode : decode [0x02, 0x00, 0x00] = .ok (.crcCompute []) := by decide

theorem witness_MalformedCommandsRefused_short :
    (Instr.mbapBuild 0x0001 0x11 8).wf = true ∧ (encode (.mbapBuild 0x0001 0x11 8)).length = 6 ∧ 0 < 1 ∧ 5 < 6 := by
  decide

theorem witness_MalformedCommandsRefused_left_over : Instr.crcInit.wf = true ∧ [(0x00 : Byte)] ≠ [] := by decide

theorem witness_MalformedCommandsRefused_prefix :
    ([] : List Byte).length < (0x00 : Byte).toNat * 256 + (0x01 : Byte).toNat ∧
    [(0xAA : Byte)].length < (0x01 : Byte).toNat * 256 + (0x00 : Byte).toNat ∧
    (0x02 : Byte) ∈ [(0x02 : Byte), 0x03, 0x09, 0x0D, 0x10, 0x14, 0x18, 0x1A] := by decide

theorem witness_MalformedCommandsRefused_step :
    ({ vec with cmdPort := [[0x00, 0x00]] } : State).gwPolling = false ∧
    ({ vec with cmdPort := [[0x00, 0x00]] } : State).cmdPort = [0x00, 0x00] :: [] ∧
    decode [0x00, 0x00] = .error .bytesLeftOver := by decide

theorem witness_ReservedCodesRefused :
    (0x05 : Byte).toNat ∈ [0x05, 0x06, 0x07, 0x0A, 0x0B, 0x0F, 0x13, 0x16, 0x17] ∧ 32 ≤ (0x20 : Byte).toNat ∧
    32 ≤ (0xFF : Byte).toNat ∧ ({ vec with cmdPort := [[0x20]] } : State).gwPolling = false ∧
    ({ vec with cmdPort := [[0x20]] } : State).cmdPort = (0x20 :: []) :: [] := by decide

theorem witness_StepRunsDecodedInstruction :
    ({ vec with cmdPort := [[0x04], [0x1F]] } : State).gwPolling = false ∧
    ({ vec with cmdPort := [[0x04], [0x1F]] } : State).cmdPort = [0x04] :: [[0x1F]] ∧ decode [0x04] = .ok .crcRead := by
  decide

theorem witness_StepWithoutCommand :
    vec.gwPolling = false ∧ vec.cmdPort = [] ∧ ({ awaiting with gwPolling := true } : State).gwPolling = true := by
  decide

theorem witness_SysResetReachesReset : ∃ t, exec .sysReset awaiting = .next t := exec_next _ _

theorem witness_CrcInitSetsRegister : ∃ t, exec .crcInit awaiting = .next t := exec_next _ _

theorem witness_CrcBitAndByteStep : 0 < 15 ∧ 14 < 15 := by decide

theorem witness_CrcDetectsSingleBitFlips : 0 < [(0x01 : Byte)].length ∧ 0 < 8 ∧ 7 < 8 ∧ 0 < 16 ∧ 15 < 16 := by decide

theorem witness_RtuRoundTrip : ([] : List Byte).length ≤ 253 ∧ (List.replicate 253 (0 : Byte)).length ≤ 253 := by
  decide +kernel

theorem witness_LnkPollReadsThenTestsSilence : ∃ s g : State, s.env.afterNow.serRead = [0x11] ∧
    g = s.env.afterNow.serRead.foldl
      (fun u b => if u.lnkLen = u.par.lnkCap then { u with lnkBuf := [] }
        else { u with lnkBuf := u.lnkBuf ++ [b], lnkLastRx := s.env.now })
      { s with env := s.env.afterNow.afterSerRead } :=
  ⟨given [100] [[0x11]] [] [] vec, _, rfl, rfl⟩

/-- One byte, with room for one, with room for none, and with a whole buffer behind the byte that does not fit. -/
theorem witness_LnkPollCollectsOrLosesSilently :
    (given [100] [[0x11]] [] [] vec).env.afterNow.serRead = [0x11] ∧ [(0x11 : Byte)] ≠ [] ∧ vec.par.lnkCap = 256 ∧
    255 + [(0x11 : Byte)].length ≤ 256 ∧ 256 + [(0x11 : Byte)].length = 256 + 1 + 0 ∧
    256 + (List.replicate 257 (0x11 : Byte)).length = 256 + 1 + 256 := by
  refine ⟨by decide, by decide, by decide, by decide, by decide, ?_⟩
  rw [List.length_replicate]

theorem witness_TfaAppendTakesWhatFits :
    min [(0x01 : Byte), 0x02].length (260 - vec.tfaLen) = 2 ∧
    min [(0x01 : Byte), 0x02].length (260 - ({ vec with tcpBuf := List.replicate 260 0 } : State).tfaLen) = 0 := by
  decide +kernel

theorem witness_TfaResetClears : ∃ t, exec .tfaReset awaiting = .next t := exec_next _ _

theorem witness_TfaCompletenessByCount :
    (List.replicate 253 (0 : Byte)).length ≤ 253 ∧
    260 ≤ (tcpFrame 0x0001 0x11 (List.replicate 253 0) ++ []).length ∧ (List.replicate 260 (0 : Byte)).length = 260 := by
  decide +kernel

theorem witness_MbapParseHeader :
    [(0x00 : Byte), 0x01, 0x00, 0x00, 0x00, 0x06].length < 7 ∧ ([] : List Byte).length < 7 := by decide

theorem witness_MbapBuildHeader :
    [hi8 0xBEEF, lo8 0xBEEF, 0x00, 0x00, 0x00, BitVec.ofNat 8 ((253 : Half).toNat + 1), 0x00] =
      [0xBE, 0xEF, 0x00, 0x00, 0x00, 0xFE, (0x00 : Byte)] := by decide

theorem witness_MbapRoundTrip : (0 : Half).toNat ≤ 253 ∧ (253 : Half).toNat ≤ 253 := by decide

theorem witness_PduCompositionLaws :
    ([] : List Byte).length ≤ 253 ∧ (0 : Half) = BitVec.ofNat 16 ([] : List Byte).length ∧
    (List.replicate 253 (0 : Byte)).length ≤ 253 ∧ (253 : Half) = BitVec.ofNat 16 (List.replicate 253 (0 : Byte)).length := by
  decide +kernel

theorem witness_GwStepNoConnection :
    (given [] [] [none] [] vec).gwState = .idle ∧ (given [] [] [none] [] vec).env.tcpAccept = none := by decide

/-- What an Idle step with the given bytes in TCPBUF and the given bytes arriving looks at. -/
def looksAt (before arriving : List Byte) : List Byte :=
  before ++ (given [] [] [some 1] [arriving] { vec with tcpBuf := before }).env.afterTcpAccept.tcpRead (260 - before.length)

theorem witness_GwStep_accepts (before arriving : List Byte) :
    (given [] [] [some 1] [arriving] { vec with tcpBuf := before }).gwState = .idle ∧
    (given [] [] [some 1] [arriving] { vec with tcpBuf := before }).env.tcpAccept = some 1 := ⟨rfl, rfl⟩

/-- Six bytes, all but one byte of the request, and a full buffer that can never complete. -/
theorem witness_GwStepIncompleteOrOverflow :
    (looksAt [] (req.take 6)).length < 7 ∧
    (looksAt (req.take 6) ((req.take 11).drop 6)).length < 6 + (be16 (looksAt (req.take 6) ((req.take 11).drop 6)) 4).toNat ∧
    (looksAt (req.take 4 ++ [0x00, 0xFF]) (List.replicate 300 0)).length = 260 ∧
    260 < 6 + (be16 (looksAt (req.take 4 ++ [0x00, 0xFF]) (List.replicate 300 0)) 4).toNat := by decide +kernel

/-- A protocol id that is not 0 and a length field of 0 (V-GW-4, V-GW-5). -/
theorem witness_GwStepInvalidHeader :
    7 ≤ (looksAt [] (req.set 3 1)).length ∧ 6 + (be16 (looksAt [] (req.set 3 1)) 4).toNat ≤ (looksAt [] (req.set 3 1)).length ∧
    be16 (looksAt [] (req.set 3 1)) 2 ≠ 0 ∧
    7 ≤ (looksAt [] ((req.take 7).set 5 0)).length ∧
    6 + (be16 (looksAt [] ((req.take 7).set 5 0)) 4).toNat ≤ (looksAt [] ((req.take 7).set 5 0)).length ∧
    be16 (looksAt [] ((req.take 7).set 5 0)) 4 = 0 := by decide +kernel

/-- The largest request a PDU of 253 bytes makes, and the smallest, with an empty PDU (V-TFA-14). -/
theorem witness_GwStepForwards :
    (∀ b ∈ [looksAt [] (tcpFrame 0x0001 0x11 (List.replicate 253 0)), looksAt [0x00, 0x09] [0x00, 0x00, 0x00, 0x01, 0x07]],
      7 ≤ b.length ∧ 6 + (be16 b 4).toNat ≤ b.length ∧ be16 b 2 = 0 ∧ be16 b 4 ≠ 0) ∧ [(0x00 : Byte), 0x09].length ≤ 260 := by
  decide +kernel

/-- A poll that finds the line silent delivers what LNKBUF holds, whatever it is. -/
theorem poll_delivers (s : State) (f : List Byte) (hb : s.lnkBuf = f) (hf : 0 < f.length)
    (he : s.env = (given [1020] [[]] [] [] awaiting).env) (hl : s.lnkLastRx = 0) (hc : s.cfgSilenceMs = 5) :
    ∃ s1, lnkPollOp s = (s1, some f) := by
  have hg : lnkGather s = s.afterNow.afterSerRead := by rw [lnkGather, State.afterNow, he]; rfl
  have hs : (lnkGather s).lineSilent s.env.now = true := by
    have hn : s.env.now = 1020 := by rw [he]; rfl
    rw [State.lineSilent_iff, hg, hn]
    simp only [State.lnkLen, State.afterSerRead_lnkBuf, State.afterNow_lnkBuf, State.afterSerRead_cfgSilenceMs,
      State.afterNow_cfgSilenceMs, State.afterSerRead_lnkLastRx, State.afterNow_lnkLastRx, hb, hl, hc]
    exact ⟨hf, by decide⟩
  rw [lnkPollOp, if_pos hs, State.lnkLen, Memory.read_all, hg]
  exact ⟨_, by rw [State.afterSerRead_lnkBuf, State.afterNow_lnkBuf, hb]⟩

/-- A waiting gateway with the given bytes in LNKBUF, the longest LNK_CAP, and a line that has been silent. -/
def replied (f : List Byte) : State :=
  given [1020] [[]] [] [] { awaiting with lnkBuf := f, par := { awaiting.par with lnkCapOver := 4 } }

theorem witness_GwStepWaitsOrTimesOut :
    awaiting.gwState = .awaiting ∧ awaiting.txn = some txn1 ∧
    (lnkPollOp (given [2009] [[]] [] [] awaiting)).2 = none ∧ ((2009 : Millis) - txn1.deadline).toNat ≥ 2147483648 ∧
    (lnkPollOp (given [2010] [[]] [] [] awaiting)).2 = none ∧ ((2010 : Millis) - txn1.deadline).toNat < 2147483648 := by
  decide

/-- PDUs of one byte and of 253. -/
theorem witness_GwStepResponds (pdu : List Byte) (h : pdu = [0x01] ∨ pdu = List.replicate 253 0) :
    (replied (rtuFrame 0x07 pdu)).gwState = .awaiting ∧ (replied (rtuFrame 0x07 pdu)).txn = some txn1 ∧ 1 ≤ pdu.length ∧
    pdu.length ≤ 253 ∧ ∃ s1, lnkPollOp (replied (rtuFrame 0x07 pdu)) = (s1, some (rtuFrame 0x07 pdu)) :=
  ⟨rfl, rfl, by rcases h with rfl | rfl <;> decide +kernel, by rcases h with rfl | rfl <;> decide +kernel,
    poll_delivers _ _ rfl (by simp [rtuFrame]) rfl rfl rfl⟩

/-- Replies of 3 bytes, of 257 bytes, and of 4 bytes with a checksum that does not match (V-RTU-4, V-RTU-9, V-RTU-8). -/
theorem witness_GwStepDropsBadReply :
    (∀ f ∈ [[0x07, 0xFE, 0x82], List.replicate 257 0, [0x07, 0x01, 0xC2, 0x41]], 0 < f.length →
      ∃ s1, (replied f).gwState = .awaiting ∧ lnkPollOp (replied f) = (s1, some f)) ∧
    [(0x07 : Byte), 0xFE, 0x82].length < 4 ∧ 256 < (List.replicate 257 (0 : Byte)).length ∧
    4 ≤ [(0x07 : Byte), 0x01, 0xC2, 0x41].length ∧
    crc16 ([0x07, 0x01, 0xC2, 0x41].take 2) ≠ le16 [0x07, 0x01, 0xC2, 0x41] 2 := by
  refine ⟨fun f _ hf => ?_, by decide, by decide +kernel, by decide, by decide +kernel⟩
  obtain ⟨s1, e⟩ := poll_delivers (replied f) f rfl hf rfl rfl rfl
  exact ⟨s1, rfl, e⟩

theorem witness_GwStepNeverPduTooLarge : vec.Inv ∧ ∃ t, exec .gwStep vec = .next t := ⟨vec_inv, exec_next _ _⟩

theorem witness_GwOneTransactionAtATime :
    awaiting.gwState = .awaiting ∧ (∃ t, exec .gwStep awaiting = .next t) ∧
    (given [2010] [[]] [] [] awaiting).Inv ∧
    (run .gwStep (given [2010] [[]] [] [] awaiting)).map (fun t => t.resPort) = some ([] ++ [[0x02]]) := by
  exact ⟨rfl, exec_next _ _, by decide, by decide⟩

theorem witness_GwPollOneStep :
    vec.gwPolling = false ∧ (run .gwStep (given [] [] [none] [] vec)).map (fun t => t.gwState) = some .idle := by decide

/-- The one placed answer of NOW is the deadline itself; and two placed answers, the second of which is the deadline. -/
theorem witness_GwPollEndsByDeadline :
    awaiting.gwState = .awaiting ∧ awaiting.txn = some txn1 ∧
    (∃ now ∈ (given [2010] [[]] [] [] awaiting).env.nowQ, reached now txn1.deadline = true) ∧
    (given [1500, 2010] [[], []] [] [] awaiting).env.NowMonotone ∧
    (given [1500, 2010] [[], []] [] [] awaiting).env.lastNow = some 1010 ∧
    (given [1500, 2010] [[], []] [] [] awaiting).env.nowQ ≠ [] ∧
    (elapsed txn1.deadline 1010).toNat ≤ timePassed 1010 (given [1500, 2010] [[], []] [] [] awaiting).env.nowQ :=
  ⟨rfl, rfl, ⟨2010, by decide, by decide⟩, by decide, rfl, by decide, by decide⟩

/-- A gateway about to relay the given PDUs: the reply comes at the last millisecond before the deadline, and the silence is
the shortest that is longer than the threshold. -/
def aboutToRelay (pdu pdu2 : List Byte) : State :=
  given [1010, 2009, 2015] [rtuFrame 0x0A pdu2, []] [some 1] [tcpFrame 0x0001 0x11 pdu] vec

/-- An empty request PDU and the largest, a reply PDU of one byte and the largest. -/
theorem witness_GatewayRelaysEveryTransaction :
    (∀ pdu pdu2, (aboutToRelay pdu pdu2).gwState = .idle ∧ (aboutToRelay pdu pdu2).tcpBuf = [] ∧
      (aboutToRelay pdu pdu2).lnkBuf = [] ∧ (aboutToRelay pdu pdu2).env.acceptQ = some 1 :: [] ∧
      (aboutToRelay pdu pdu2).env.readQ = tcpFrame 0x0001 0x11 pdu :: [] ∧
      (aboutToRelay pdu pdu2).env.nowQ = 1010 :: 2009 :: 2015 :: [] ∧
      (aboutToRelay pdu pdu2).env.rxQ = rtuFrame 0x0A pdu2 :: [] :: []) ∧
    ([] : List Byte).length ≤ 253 ∧ (List.replicate 253 (0 : Byte)).length ≤ 253 ∧ 1 ≤ [(0x01 : Byte)].length ∧
    reached 2009 (1010 + vec.cfgRtuTimeoutMs) = false ∧ vec.cfgSilenceMs.toNat < ((2015 : Millis) - 2009).toNat :=
  ⟨fun _ _ => ⟨rfl, rfl, rfl, rfl, rfl, rfl, rfl⟩, by decide +kernel⟩

theorem witness_CfgSetWritesOneRegister : (0x02 : Byte) ≠ 0x00 ∧ (0x02 : Byte) ≠ 0x01 ∧ (0xFF : Byte) ≠ 0x01 := by
  decide

/-- NOW wraps between the last sample and the placed one. -/
theorem witness_StepKeepsInvariant :
    vec.Inv ∧ step vec = .next vec ∧ vec.env.NowMonotone ∧
    ({ vec.env with nowQ := [0x00000004], lastNow := some 0xFFFFFFF0 } : Env).NowMonotone :=
  ⟨vec_inv, rfl, by decide, by decide⟩

/-- The premise of R18 excludes a NOW that goes back by a millisecond, and one that jumps by 2^31. -/
theorem test_nowMonotone_excludes :
    ¬ ({ vec.env with nowQ := [99], lastNow := some 100 } : Env).NowMonotone ∧
    ¬ ({ vec.env with nowQ := [0x80000005, 5] } : Env).NowMonotone := by decide

/-- Every class of operations leaves some operation out, and CRC.READ is in none of them. -/
theorem witness_OnlyNamedOperationsWrite :
    (∃ t, exec .crcRead vec = .next t) ∧ writesCrc .crcRead = false ∧ writesSequencer .crcRead = false ∧
    writesConfig .crcRead = false ∧ readsEnvironment .crcRead = false ∧ emitsEvents .crcRead = false ∧
    writesLastRx .crcRead = false ∧ writesDirection .crcRead = false :=
  ⟨exec_next _ _, by decide⟩

theorem witness_OnlyNamedOperationsReachBuffers :
    (∃ t, exec .crcRead vec = .next t) ∧ reachesLnkBuf .crcRead = false ∧ reachesTcpBuf .crcRead = false ∧
    reachesTcpTx .crcRead = false ∧ vec.par.lnkClearOnSend = false ∧ (∃ t, exec (.lnkSend []) vec = .next t) ∧
    (∃ t, exec (.tfaAppend [0x00]) awaiting = .next t) ∧ 11 < awaiting.tfaLen ∧ vec.lnkLen ≠ vec.par.lnkCap ∧
    (∃ t, exec (.lnkRxbyte 0x11) vec = .next t) ∧ 1 ≠ vec.lnkLen :=
  ⟨exec_next _ _, by decide, by decide, by decide, rfl, exec_next _ _, exec_next _ _, by decide, by decide, exec_next _ _,
    by decide⟩

theorem witness_WritesStayBracketed :
    bracketed vec.trace = true ∧ step vec = .next vec ∧ bracketed (sendEvents [0x01] ++ [.tcpSend 1 []]) = true :=
  ⟨rfl, rfl, rfl⟩

/-- A write to the line, by a command, and a TCP response, by a GW.POLL that goes on. -/
theorem witness_StepSendsBoundedWritesAndLegalResponses :
    (∃ t, step { vec with cmdPort := [[0x0D, 0x00, 0x01, 0x07]] } = .next t ∧ Event.serWrite [0x07] ∈ t.trace ∧
      Event.serWrite [0x07] ∉ vec.trace) ∧
    (∃ t, step { replied [0x07, 0x01, 0xC2, 0x40] with gwPolling := true } = .next t ∧
      Event.tcpSend 1 [0x00, 0x01, 0x00, 0x00, 0x00, 0x02, 0x07, 0x01] ∈ t.trace ∧ t.trace.length = 1) :=
  ⟨⟨_, rfl, by decide, by decide⟩, ⟨_, rfl, by decide +kernel, by decide +kernel⟩⟩

end Sys2Proof.Tests
end

section
/-! The reset state (R55). -/

namespace Sys2Proof.Machine

/-- Settles O8. Each register is read off the definition of the reset state: the three lengths are those of empty buffers
(R52), TXN_VALID says that there is no transaction (R42), and the timeout is the parameter's own open constant on both sides,
so that its value plays no part (R13, log 7). -/
theorem resetRegisters : Obligations.ResetRegisters := by
  unfold Obligations.ResetRegisters
  refine ⟨?crc, ?lnkLen, ?lnkLastRx, ?lnkDir, ?tfaLen, ?tcpTxLen, ?gwState, ?txnValid, ?silence, ?timeout⟩
  case crc | lnkLastRx | lnkDir | gwState => rfl
  case lnkLen | tfaLen | tcpTxLen => exact List.length_nil
  case txnValid => exact Option.isSome_none
  case silence => exact (rfl : Config.SILENCE_MS_RESET = 5)
  case timeout => exact (rfl : Config.RTU_TIMEOUT_MS_RESET = Params.default.rtuTimeoutMsReset)

end Sys2Proof.Machine
end

section
/-!
The decoder (R115, R116, R122): the command of an operation is read back, and a command that was read is refused as soon as a
byte follows it, so that no command is the beginning of another.
-/

namespace Sys2Proof

open Sys2Proof.Machine

/-! ## Reading one letter -/

/-- R122. -/
theorem done_of_ne_nil {x : List Byte} (hx : x ≠ []) (i : Instr) : done x i = .error .bytesLeftOver := by
  cases x with
  | nil => exact absurd rfl hx
  | cons _ _ => rfl

@[simp] theorem full_extractLsb' (v : Millis) :
    full (v.extractLsb' 24 8) (v.extractLsb' 16 8) (v.extractLsb' 8 8) (v.extractLsb' 0 8) = v := by
  rw [full, BitVec.extractLsb'_append_extractLsb'_eq_extractLsb' (start₁ := 16) (len₁ := 8) rfl,
    BitVec.extractLsb'_append_extractLsb'_eq_extractLsb' (start₁ := 8) (len₁ := 8) rfl,
    BitVec.extractLsb'_append_extractLsb'_eq_extractLsb' (start₁ := 0) (len₁ := 8) rfl]
  exact BitVec.extractLsb'_eq_self

theorem half_toNat (hi lo : Byte) : (half hi lo).toNat = hi.toNat * 256 + lo.toNat :=
  be16_toNat [hi, lo] 0

@[simp] theorem takeB_encB (b : Byte) (x : List Byte) : takeB (encB b ++ x) = .ok (b, x) := rfl

@[simp] theorem takeH_encH (v : Half) (x : List Byte) : takeH (encH v ++ x) = .ok (v, x) := by
  simp [encH, beBytes, takeH]

@[simp] theorem takeW_encW (v : Millis) (x : List Byte) : takeW (encW v ++ x) = .ok (v, x) := by
  simp [encW, takeW]

/-- `takeS` once its length has been read. -/
theorem takeS_of_takeH {bs r : List Byte} {n : Half} (h : takeH bs = .ok (n, r)) :
    takeS bs = if n.toNat ≤ r.length then .ok (r.take n.toNat, r.drop n.toNat) else .error .badLengthPrefix := by
  rw [takeS, h]

theorem takeS_encS {s : List Byte} (h : fitsPrefix s = true) (x : List Byte) : takeS (encS s ++ x) = .ok (s, x) := by
  have hn : (BitVec.ofNat 16 s.length).toNat = s.length := by
    rw [BitVec.toNat_ofNat, Nat.mod_eq_of_lt (of_decide_eq_true h)]
  rw [encS, List.append_assoc, takeS_of_takeH (takeH_encH _ _), hn]
  simp

/-- R122: the declared length exceeds the bytes that follow. -/
theorem takeS_badLengthPrefix {hi lo : Byte} {r : List Byte} (h : r.length < hi.toNat * 256 + lo.toNat) :
    takeS (hi :: lo :: r) = .error .badLengthPrefix := by
  rw [takeS_of_takeH (rfl : takeH (hi :: lo :: r) = .ok (half hi lo, r)), half_toNat, if_neg (by omega)]

/-! ## Formats as letters one after the other -/

/-- One letter, and what the rest of the format does with its value and the bytes behind it. -/
def readThen {α : Type} (take : List Byte → Except DecodeRefusal (α × List Byte))
    (rest : α → List Byte → Except DecodeRefusal Instr) (r : List Byte) : Except DecodeRefusal Instr :=
  match take r with
  | .error e => .error e
  | .ok (a, left) => rest a left

section
variable {α : Type} {take : List Byte → Except DecodeRefusal (α × List Byte)}
  {rest : α → List Byte → Except DecodeRefusal Instr} {r left : List Byte}

theorem readThen_of_ok {a : α} (h : take r = .ok (a, left)) : readThen take rest r = rest a left := by
  rw [readThen, h]

theorem readThen_of_error {e : DecodeRefusal} (h : take r = .error e) : readThen take rest r = .error e := by
  rw [readThen, h]

theorem readThen_eq_ok {i : Instr} (h : readThen take rest r = .ok i) :
    ∃ a left, take r = .ok (a, left) ∧ rest a left = .ok i := by
  cases ht : take r with
  | error e => rw [readThen_of_error ht] at h; cases h
  | ok p => exact ⟨p.1, p.2, rfl, by rwa [readThen_of_ok ht] at h⟩

end

theorem readB_eq (mk : Byte → Instr) : readB mk = readThen takeB fun b r => done r (mk b) := by
  funext r
  unfold readB readThen
  cases takeB r <;> rfl

theorem readS_eq (mk : List Byte → Instr) : readS mk = readThen takeS fun s r => done r (mk s) := by
  funext r
  unfold readS readThen
  cases takeS r <;> rfl

theorem readSH_eq (mk : List Byte → Half → Instr) :
    readSH mk = readThen takeS fun s => readThen takeH fun h r => done r (mk s h) := by
  funext r
  unfold readSH readThen
  rcases takeS r with _ | ⟨_, left⟩
  · rfl
  · dsimp only
    cases takeH left <;> rfl

theorem readBS_eq (mk : Byte → List Byte → Instr) : readBS mk = readThen takeB fun b => readS (mk b) := by
  funext r
  unfold readBS readThen
  cases takeB r <;> rfl

theorem readHBH_eq (mk : Half → Byte → Half → Instr) :
    readHBH mk = readThen takeH fun h => readThen takeB fun b => readThen takeH fun k r => done r (mk h b k) := by
  funext r
  unfold readHBH readThen
  rcases takeH r with _ | ⟨_, left⟩
  · rfl
  · dsimp only
    rcases takeB left with _ | ⟨_, left'⟩
    · rfl
    · dsimp only
      cases takeH left' <;> rfl

theorem readHBS_eq (mk : Half → Byte → List Byte → Instr) : readHBS mk = readThen takeH fun h => readBS (mk h) := by
  funext r
  unfold readHBS readThen
  cases takeH r <;> rfl

theorem readBW_eq (mk : Byte → Millis → Instr) :
    readBW mk = readThen takeB fun b => readThen takeW fun w r => done r (mk b w) := by
  funext r
  unfold readBW readThen
  rcases takeB r with _ | ⟨_, left⟩
  · rfl
  · dsimp only
    cases takeW left <;> rfl

/-! ## The command of an operation is read back -/

section
variable {s : List Byte} (hs : fitsPrefix s = true) (b : Byte) (h k : Half) (w : Millis) (x : List Byte)

theorem readB_operands (mk : Byte → Instr) : readB mk (encB b ++ x) = done x (mk b) := rfl

theorem readHBH_operands (mk : Half → Byte → Half → Instr) :
    readHBH mk (encH h ++ encB b ++ encH k ++ x) = done x (mk h b k) := by
  rw [readHBH_eq, List.append_assoc, List.append_assoc, readThen_of_ok (takeH_encH _ _), readThen_of_ok (takeB_encB _ _),
    readThen_of_ok (takeH_encH _ _)]

theorem readBW_operands (mk : Byte → Millis → Instr) : readBW mk (encB b ++ encW w ++ x) = done x (mk b w) := by
  rw [readBW_eq, List.append_assoc, readThen_of_ok (takeB_encB _ _), readThen_of_ok (takeW_encW _ _)]

include hs

theorem readS_operands (mk : List Byte → Instr) : readS mk (encS s ++ x) = done x (mk s) := by
  rw [readS_eq, readThen_of_ok (takeS_encS hs _)]

theorem readSH_operands (mk : List Byte → Half → Instr) : readSH mk (encS s ++ encH h ++ x) = done x (mk s h) := by
  rw [readSH_eq, List.append_assoc, readThen_of_ok (takeS_encS hs _), readThen_of_ok (takeH_encH _ _)]

theorem readBS_operands (mk : Byte → List Byte → Instr) : readBS mk (encB b ++ encS s ++ x) = done x (mk b s) := by
  rw [readBS_eq, List.append_assoc, readThen_of_ok (takeB_encB _ _), readS_operands hs]

theorem readHBS_operands (mk : Half → Byte → List Byte → Instr) :
    readHBS mk (encH h ++ encB b ++ encS s ++ x) = done x (mk h b s) := by
  rw [readHBS_eq, List.append_assoc, List.append_assoc, readThen_of_ok (takeH_encH _ _), ← List.append_assoc,
    readBS_operands hs]

end

/-- One line per row of R120: the operation byte selects the reader of the operation's own format. -/
theorem decode_encode_append (x : List Byte) : ∀ i : Instr, i.wf = true → decode (encode i ++ x) = done x i
  | .crcInit, _ | .crcRead, _ | .lnkPoll, _ | .tfaIscomplete, _ | .tfaReset, _ | .gwPoll, _ | .gwStep, _
  | .sysReset, _ => rfl
  | .crcByte b, _ => readB_operands b x .crcByte
  | .crcCompute _, hs => readS_operands hs x .crcCompute
  | .crcVerify _ crc, hs => readSH_operands hs crc x .crcVerify
  | .rtuBuild unitId _, hs => readBS_operands hs unitId x .rtuBuild
  | .rtuParse _, hs => readS_operands hs x .rtuParse
  | .lnkSend _, hs => readS_operands hs x .lnkSend
  | .lnkRxbyte b, _ => readB_operands b x .lnkRxbyte
  | .tfaAppend _, hs => readS_operands hs x .tfaAppend
  | .mbapParse _, hs => readS_operands hs x .mbapParse
  | .mbapBuild tid unitId plen, _ => readHBH_operands unitId tid plen x .mbapBuild
  | .pduExtract _ plen, hs => readSH_operands hs plen x .pduExtract
  | .pduWrap unitId _, hs => readBS_operands hs unitId x .pduWrap
  | .pduStrip _, hs => readS_operands hs x .pduStrip
  | .pduTcpresp tid unitId _, hs => readHBS_operands hs unitId tid x .pduTcpresp
  | .cfgSet idx value, _ => readBW_operands idx value x .cfgSet

theorem decode_encode {i : Instr} (h : i.wf = true) : decode (encode i) = .ok i := by
  have hd := decode_encode_append [] i h
  rwa [List.append_nil] at hd

/-! ## No command is the beginning of another -/

/-- A letter's reader takes the same bytes whatever bytes follow the ones it was given. -/
def IgnoresFurtherBytes {α : Type} (take : List Byte → Except DecodeRefusal (α × List Byte)) : Prop :=
  ∀ {r left : List Byte} {a : α} (x : List Byte), take r = .ok (a, left) → take (r ++ x) = .ok (a, left ++ x)

/-- A reader of operands refuses what it has accepted as soon as a byte follows. -/
def RefusesLonger (read : List Byte → Except DecodeRefusal Instr) : Prop :=
  ∀ {r x : List Byte} {i : Instr}, x ≠ [] → read r = .ok i → read (r ++ x) = .error .bytesLeftOver

theorem takeB_ignoresFurtherBytes : IgnoresFurtherBytes takeB := by
  intro r left a x h
  match r, h with
  | _ :: _, rfl => rfl

theorem takeH_ignoresFurtherBytes : IgnoresFurtherBytes takeH := by
  intro r left a x h
  match r, h with
  | _ :: _ :: _, rfl => rfl

theorem takeW_ignoresFurtherBytes : IgnoresFurtherBytes takeW := by
  intro r left a x h
  match r, h with
  | _ :: _ :: _ :: _ :: _, rfl => rfl

theorem takeS_ignoresFurtherBytes : IgnoresFurtherBytes takeS := by
  intro r left s x h
  cases hH : takeH r with
  | error e => rw [takeS, hH] at h; cases h
  | ok p =>
    obtain ⟨n, body⟩ := p
    rw [takeS_of_takeH hH] at h
    split at h
    case isFalse => cases h
    case isTrue hn =>
      cases h
      rw [takeS_of_takeH (takeH_ignoresFurtherBytes x hH), if_pos (by rw [List.length_append]; omega),
        List.take_append_of_le_length hn, List.drop_append_of_le_length hn]

theorem done_refusesLonger (i : Instr) : RefusesLonger fun r => done r i := by
  intro r x j hx h
  exact done_of_ne_nil (List.append_ne_nil_of_right_ne_nil r hx) i

theorem readThen_refusesLonger {α : Type} {take : List Byte → Except DecodeRefusal (α × List Byte)}
    {rest : α → List Byte → Except DecodeRefusal Instr} (ht : IgnoresFurtherBytes take)
    (hr : ∀ a, RefusesLonger (rest a)) : RefusesLonger (readThen take rest) := by
  intro r x i hx h
  obtain ⟨a, left, ha, hi⟩ := readThen_eq_ok h
  rw [readThen_of_ok (ht x ha)]
  exact hr a hx hi

theorem readB_refusesLonger (mk : Byte → Instr) : RefusesLonger (readB mk) := by
  rw [readB_eq]
  exact readThen_refusesLonger takeB_ignoresFurtherBytes fun _ => done_refusesLonger _

theorem readS_refusesLonger (mk : List Byte → Instr) : RefusesLonger (readS mk) := by
  rw [readS_eq]
  exact readThen_refusesLonger takeS_ignoresFurtherBytes fun _ => done_refusesLonger _

theorem readSH_refusesLonger (mk : List Byte → Half → Instr) : RefusesLonger (readSH mk) := by
  rw [readSH_eq]
  exact readThen_refusesLonger takeS_ignoresFurtherBytes fun _ =>
    readThen_refusesLonger takeH_ignoresFurtherBytes fun _ => done_refusesLonger _

theorem readBS_refusesLonger (mk : Byte → List Byte → Instr) : RefusesLonger (readBS mk) := by
  rw [readBS_eq]
  exact readThen_refusesLonger takeB_ignoresFurtherBytes fun _ => readS_refusesLonger _

theorem readHBH_refusesLonger (mk : Half → Byte → Half → Instr) : RefusesLonger (readHBH mk) := by
  rw [readHBH_eq]
  exact readThen_refusesLonger takeH_ignoresFurtherBytes fun _ =>
    readThen_refusesLonger takeB_ignoresFurtherBytes fun _ =>
      readThen_refusesLonger takeH_ignoresFurtherBytes fun _ => done_refusesLonger _

theorem readHBS_refusesLonger (mk : Half → Byte → List Byte → Instr) : RefusesLonger (readHBS mk) := by
  rw [readHBS_eq]
  exact readThen_refusesLonger takeH_ignoresFurtherBytes fun _ => readBS_refusesLonger _

theorem readBW_refusesLonger (mk : Byte → Millis → Instr) : RefusesLonger (readBW mk) := by
  rw [readBW_eq]
  exact readThen_refusesLonger takeB_ignoresFurtherBytes fun _ =>
    readThen_refusesLonger takeW_ignoresFurtherBytes fun _ => done_refusesLonger _

/-- By the format of each code: the cases are the rows of R120 in the table's order, and last the reserved codes. -/
theorem decodeOpsel_refusesLonger (opsel : Nat) : RefusesLonger (decodeOpsel opsel) := by
  intro r x i hx h
  unfold decodeOpsel at h ⊢
  split at h
  case h_1 | h_5 | h_8 | h_12 | h_13 | h_20 | h_21 | h_23 => exact done_refusesLonger _ hx h
  case h_2 | h_10 => exact readB_refusesLonger _ hx h
  case h_3 | h_7 | h_9 | h_11 | h_14 | h_18 => exact readS_refusesLonger _ hx h
  case h_4 | h_16 => exact readSH_refusesLonger _ hx h
  case h_6 | h_17 => exact readBS_refusesLonger _ hx h
  case h_15 => exact readHBH_refusesLonger _ hx h
  case h_19 => exact readHBS_refusesLonger _ hx h
  case h_22 => exact readBW_refusesLonger _ hx h
  case h_24 => cases h

theorem decode_refusesLonger : RefusesLonger decode := by
  intro r x i hx h
  cases r with
  | nil => cases h
  | cons op r =>
    rw [decode] at h
    rw [List.cons_append, decode]
    split at h
    case isTrue hop => rw [if_pos hop, decodeOpsel_refusesLonger _ hx h]
    case isFalse => cases h

/-- R122: were a command cut short read, it would refuse the bytes cut off, and yet the whole command is read. -/
theorem decode_take_encode {i : Instr} (h : i.wf = true) {n : Nat} (hn : n < (encode i).length) :
    ∃ e, decode ((encode i).take n) = .error e := by
  cases hd : decode ((encode i).take n) with
  | error e => exact ⟨e, rfl⟩
  | ok j =>
    have hx : (encode i).drop n ≠ [] := fun hnil => absurd (List.drop_eq_nil_iff.mp hnil) (by omega)
    have hlong := decode_refusesLonger hx hd
    rw [List.take_append_drop, decode_encode h] at hlong
    cases hlong

/-! ## Refused commands -/

/-- R122: the operations whose first operand is an `S`. -/
theorem decode_badLengthPrefix {hi lo : Byte} {r : List Byte} (h : r.length < hi.toNat * 256 + lo.toNat) :
    ∀ op ∈ [0x02, 0x03, 0x09, 0x0D, 0x10, 0x14, 0x18, 0x1A], decode (op :: hi :: lo :: r) = .error .badLengthPrefix := by
  have hS (mk) : readS mk (hi :: lo :: r) = .error .badLengthPrefix := by
    rw [readS_eq, readThen_of_error (takeS_badLengthPrefix h)]
  have hSH (mk) : readSH mk (hi :: lo :: r) = .error .badLengthPrefix := by
    rw [readSH_eq, readThen_of_error (takeS_badLengthPrefix h)]
  simp [decode, decodeOpsel, hS, hSH]

/-- R121: the nine reserved codes. -/
theorem decodeOpsel_reserved (r : List Byte) :
    ∀ n ∈ [0x05, 0x06, 0x07, 0x0A, 0x0B, 0x0F, 0x13, 0x16, 0x17], decodeOpsel n r = .error .reservedOpsel := by
  simp [decodeOpsel]

/-- R121: a reserved code, or a bit of 7:5. -/
theorem decode_reserved {op : Byte} (r : List Byte)
    (h : op.toNat ∈ [0x05, 0x06, 0x07, 0x0A, 0x0B, 0x0F, 0x13, 0x16, 0x17] ∨ 32 ≤ op.toNat) :
    ∃ e, decode (op :: r) = .error e := by
  rw [decode]
  split
  case isTrue hlt => exact ⟨_, decodeOpsel_reserved r _ (h.resolve_right (Nat.not_le_of_lt hlt))⟩
  case isFalse => exact ⟨_, rfl⟩

/-- R120: the operation bytes of the table, none of them reserved and all below 32. -/
theorem opcode_not_reserved (i : Instr) :
    i.opcode.toNat ∉ [0x05, 0x06, 0x07, 0x0A, 0x0B, 0x0F, 0x13, 0x16, 0x17] ∧ i.opcode.toNat < 32 := by
  cases i <;> simp [Instr.opcode]

/-- R121, R122: a refused command is taken off the port and answered with IllegalOp. -/
theorem step_of_decode_error {s : State} {command : List Byte} {rest : List (List Byte)} {e : DecodeRefusal}
    (hp : s.gwPolling = false) (hc : s.cmdPort = command :: rest) (hd : decode command = .error e) :
    step s = .next { s with cmdPort := rest, resPort := s.resPort ++ [[0x07]] } := by
  have ht : s.takeCommand.refuseCommand = { s with cmdPort := rest, resPort := s.resPort ++ [[0x07]] } := by
    rw [State.takeCommand, hc]
    rfl
  simp [step, hp, hc, hd, ht]

end Sys2Proof
end

section
/-! Malformed commands (R121, R122). -/

namespace Sys2Proof.Machine

/-- Settles O4. No command is the beginning of another, so that one cut short is not read; bytes left over reach the end of
the format; a length that exceeds the bytes that follow is found by the first letter. -/
theorem malformedCommandsRefused : Obligations.MalformedCommandsRefused := by
  unfold Obligations.MalformedCommandsRefused
  refine ⟨?short, ?leftOver, ?badLength, ?answer⟩
  case short => exact fun _ _ hwf _ hn => decode_take_encode hwf hn
  case leftOver => exact fun i extra hwf hx => ⟨_, (decode_encode_append extra i hwf).trans (done_of_ne_nil hx i)⟩
  case badLength => exact fun _ _ _ h => decode_badLengthPrefix h
  case answer => exact fun _ _ _ _ hp hc hd => step_of_decode_error hp hc hd

/-- Settles O5. The operation bytes of the table are below 32 and not reserved, and the decoder refuses every other one
without looking at the bytes behind it. -/
theorem reservedCodesRefused : Obligations.ReservedCodesRefused := by
  unfold Obligations.ReservedCodesRefused
  intro op r s rest hop hp hc
  constructor
  · rintro i rfl
    obtain ⟨hreserved, hlt⟩ := opcode_not_reserved i
    exact hop.elim hreserved (Nat.not_le_of_lt hlt)
  · obtain ⟨e, hd⟩ := decode_reserved r hop
    exact step_of_decode_error hp hc hd

end Sys2Proof.Machine
end

section
/-!
The CRC unit (R142, R144 to R148): the checksum by its last byte, and the next state of each operation, whole. Every other
statement about the unit rests on these and unfolds neither the operations nor their answers.
-/

namespace Sys2Proof.Machine

/-! ## The checksum -/

@[simp] theorem crc16_nil : crc16 [] = 0xFFFF := rfl

/-- R142: the register is fed the bytes from the front, so the last one is fed last. -/
theorem crc16_append_singleton (s : List Byte) (b : Byte) : crc16 (s ++ [b]) = crcStep (crc16 s) b :=
  List.foldl_concat ..

/-- R143: the source's vector. -/
theorem crc16_sourceVector : crc16 [0x01, 0x03, 0x00, 0x00, 0x00, 0x0A] = 0xCDC5 := by
  decide +kernel

/-- R145: a zero byte still shifts. -/
theorem crcStep_ones_zero : crcStep 0xFFFF 0x00 = 0x40BF := by decide

/-! ## The next state of each operation -/

section
variable (s : State) (bytes : List Byte) (crc : Half) (b : Byte)

/-- An operation that ends with OK posts the status byte 0 and the bytes of its result (R117). -/
theorem finish_ret {α : Type} (enc : α → List Byte) (r : α) :
    finish enc (s.ret r) = { s with resPort := s.resPort ++ [0x00 :: enc r] } := rfl

/-- R144. -/
theorem exec_crcInit_next :
    exec .crcInit s = .next { s with crc := 0xFFFF, resPort := s.resPort ++ [[0x00]] } := by
  rw [exec_crcInit, crcInitOp, finish_ret]; rfl

/-- R145. -/
theorem exec_crcByte_next :
    exec (.crcByte b) s = .next { s with crc := crcStep s.crc b, resPort := s.resPort ++ [[0x00]] } := by
  rw [exec_crcByte, crcByteOp, finish_ret]; rfl

/-- R146: the letter `H` is high byte first (R116). -/
theorem exec_crcCompute_next :
    exec (.crcCompute bytes) s = .next { s with
      crc := crc16 bytes, resPort := s.resPort ++ [[0x00, hi8 (crc16 bytes), lo8 (crc16 bytes)]] } := by
  rw [exec_crcCompute, crcComputeOp, finish_ret]; rfl

/-- R117: the byte a decision is answered by. -/
theorem encBool_decide (p : Prop) [Decidable p] : encBool (decide p) = [if p then 0x01 else 0x00] := by
  by_cases h : p <;> simp [encBool, encB, h]

/-- R147: OK whether the checksums agree or not. -/
theorem exec_crcVerify_next :
    exec (.crcVerify bytes crc) s = .next { s with
      crc := crc16 bytes, resPort := s.resPort ++ [[0x00, if crc16 bytes = crc then 0x01 else 0x00]] } := by
  rw [exec_crcVerify, crcVerifyOp, finish_ret, encBool_decide]

/-- R148. -/
theorem exec_crcRead_next :
    exec .crcRead s = .next { s with resPort := s.resPort ++ [[0x00, lo8 s.crc, hi8 s.crc]] } := by
  rw [exec_crcRead, crcReadOp, finish_ret]; rfl

end

/-- R144: with the register at its initial value only the answer is new. -/
theorem exec_crcInit_of_crc {s : State} (h : s.crc = 0xFFFF) :
    exec .crcInit s = .next { s with resPort := s.resPort ++ [[0x00]] } := by
  rw [exec_crcInit_next, ← h]

/-! ## The statements -/

/-- Settles O11. -/
theorem crcOfString : Obligations.CrcOfString := by
  unfold Obligations.CrcOfString
  exact ⟨crc16_nil, crc16_append_singleton⟩

/-- Settles O13. The first CRC.INIT leaves the register at 0xFFFF, which is all the second would write. -/
theorem crcInitSetsRegister : Obligations.CrcInitSetsRegister := by
  unfold Obligations.CrcInitSetsRegister
  refine ⟨?command, exec_crcInit_next, ?idempotent⟩
  case command => rfl
  case idempotent =>
    intro s t h
    rw [exec_crcInit_next] at h
    cases h
    exact exec_crcInit_of_crc rfl

/-- Settles O14. That the operation is not idempotent is seen on zero bytes: the second one leaves another value than the
first. -/
theorem crcByteFeedsRegister : Obligations.CrcByteFeedsRegister := by
  unfold Obligations.CrcByteFeedsRegister
  refine ⟨?command, fun b s => exec_crcByte_next s b, crcStep_ones_zero, ?one, ?notIdempotent⟩
  case command => exact fun _ => rfl
  case one => decide
  case notIdempotent =>
    rw [crcStep_ones_zero]
    decide

/-- Settles O15. The bound on the operand is what the 16 bits of its length can say (R116). -/
theorem crcComputeAnswersChecksum : Obligations.CrcComputeAnswersChecksum := by
  unfold Obligations.CrcComputeAnswersChecksum
  refine ⟨fun bytes => ⟨?command, ?wellFormed⟩, fun bytes s => exec_crcCompute_next s bytes, crc16_nil, crc16_sourceVector⟩
  case command => rfl
  case wellFormed => rw [Instr.wf, fitsPrefix, decide_eq_true_eq, Nat.lt_succ_iff]

/-- Settles O16. The source's vector has one checksum, and its bytes swapped are another 16-bit value. -/
theorem crcVerifyComparesAllBits : Obligations.CrcVerifyComparesAllBits := by
  unfold Obligations.CrcVerifyComparesAllBits
  refine ⟨?command, fun bytes crc s => exec_crcVerify_next s bytes crc, crc16_sourceVector, ?swapped⟩
  case command => exact fun _ _ => rfl
  case swapped =>
    rw [crc16_sourceVector]
    decide

/-- Settles O17. -/
theorem crcReadLowByteFirst : Obligations.CrcReadLowByteFirst := by
  unfold Obligations.CrcReadLowByteFirst
  refine ⟨?command, exec_crcRead_next, ?low, ?high⟩
  case command => rfl
  case low | high => decide

end Sys2Proof.Machine
end

section
/-!
The RTU frame codec (R161, R162): the next state of RTU.BUILD and RTU.PARSE, whole. Each follows the cases of the
operation as Laws/Ops states them, with the answer in its bytes.
-/

namespace Sys2Proof.Machine

/-! ## Fields and answers -/

/-- R71: the little-endian field of a string. -/
theorem le16_eq_ofNat (s : List Byte) (i : Nat) :
    le16 s i = BitVec.ofNat 16 ((s.getD i 0).toNat + 256 * (s.getD (i + 1) 0).toNat) := by
  have hlo := (s.getD i 0).isLt
  have hhi := (s.getD (i + 1) 0).isLt
  apply BitVec.eq_of_toNat_eq
  rw [le16, half_toNat, BitVec.toNat_ofNat, Nat.mod_eq_of_lt (by omega)]
  omega

/-- An operation that ends with an error posts the status byte and nothing behind it (R117). -/
theorem finish_error {α : Type} (enc : α → List Byte) (s : State) (e : ErrorKind) :
    finish enc (s, .error e) = { s with resPort := s.resPort ++ [[e.code]] } := rfl

/-- R105: unit id and two checksum bytes stand around the PDU. -/
@[simp] theorem rtuFrame_length (uid : Byte) (pdu : List Byte) : (rtuFrame uid pdu).length = pdu.length + 3 := by
  simp [rtuFrame]

/-- R161: the checksum of the spec's example. -/
theorem crc16_buildVector : crc16 [0x11, 0x03, 0x00, 0x6B, 0x00, 0x03] = 0x8776 := by
  decide +kernel

/-! ## The next state of each operation -/

/-- R161. -/
theorem exec_rtuBuild_next (uid : Byte) (pdu : List Byte) (s : State) :
    exec (.rtuBuild uid pdu) s =
      if 253 < pdu.length then .next { s with resPort := s.resPort ++ [[0x05]] }
      else .next { s with crc := crc16 (uid :: pdu), resPort := s.resPort ++ [0x00 :: encS (rtuFrame uid pdu)] } := by
  rw [exec_rtuBuild, rtuBuildOp_eq]
  by_cases hlong : 253 < pdu.length
  · rw [if_pos hlong, if_pos hlong, finish_error]; rfl
  · rw [if_neg hlong, if_neg hlong]; rfl

/-- R162: one case for each end of the operation, in the order of its checks. -/
theorem exec_rtuParse_next (frame : List Byte) (s : State) :
    exec (.rtuParse frame) s =
      if frame.length < 4 then .next { s with resPort := s.resPort ++ [[0x06]] }
      else if 256 < frame.length then .next { s with resPort := s.resPort ++ [[0x04]] }
      else if crc16 (frame.take (frame.length - 2)) ≠ le16 frame (frame.length - 2) then
        .next { s with crc := crc16 (frame.take (frame.length - 2)), resPort := s.resPort ++ [[0x03]] }
      else .next { s with
        crc := crc16 (frame.take (frame.length - 2))
        resPort := s.resPort ++ [0x00 :: frame.getD 0 0 :: encS ((frame.take (frame.length - 2)).drop 1)] } := by
  rw [exec_rtuParse]
  obtain ⟨h, hshort⟩ | ⟨h, hlong⟩ | ⟨h4, h256, ⟨h, hcrc⟩ | ⟨h, hcrc⟩⟩ := rtuParseOp_cases frame s
  · rw [h, finish_error, if_pos hshort]; rfl
  · rw [h, finish_error, if_neg (by omega), if_pos hlong]; rfl
  · rw [h, finish_error, if_neg (by omega), if_neg (by omega), if_pos hcrc]; rfl
  · rw [h, if_neg (by omega), if_neg (by omega), if_neg (not_not.mpr hcrc)]; rfl

/-! ## The statements -/

/-- Settles O21. The spec's example is its checksum's two bytes behind unit id and PDU. -/
theorem rtuBuildFrame : Obligations.RtuBuildFrame := by
  unfold Obligations.RtuBuildFrame
  refine ⟨?command, exec_rtuBuild_next, ?vector, rtuFrame_length⟩
  case command => exact fun _ _ => rfl
  case vector =>
    rw [rtuFrame, crc16_buildVector]
    decide

/-- Settles O22. Past the first length check the frame has a byte before its last one, so the received checksum is its last
two bytes. -/
theorem rtuParseFrame : Obligations.RtuParseFrame := by
  unfold Obligations.RtuParseFrame
  refine ⟨fun _ => rfl, fun frame s => ?_⟩
  rw [exec_rtuParse_next]
  by_cases hshort : frame.length < 4
  · rw [if_pos hshort, if_pos hshort]
  · have hlast : frame.length - 2 + 1 = frame.length - 1 := by omega
    rw [le16_eq_ofNat, hlast, if_neg hshort]

end Sys2Proof.Machine
end

section
/-!
The link framer (R184): what LNK.POLL gathers, as a fold of the step of LNK.RXBYTE, and its next state, whole.
-/

namespace Sys2Proof.Machine

/-! ## The bytes of one poll -/

/-- R182, R184: the step of LNK.RXBYTE with the poll's NOW, its status ignored. -/
theorem lnkAccept_fst (now : Millis) (b : Byte) (s : State) :
    (lnkAccept now b s).1 =
      if s.lnkLen = s.par.lnkCap then { s with lnkBuf := [] }
      else { s with lnkBuf := s.lnkBuf ++ [b], lnkLastRx := now } := by
  rw [lnkAccept_eq, apply_ite Prod.fst]

/-- R184: the bytes are fed in the order received. -/
theorem lnkAcceptAll_eq_foldl (now : Millis) (bs : List Byte) (s : State) :
    lnkAcceptAll now bs s =
      bs.foldl (fun u b => if u.lnkLen = u.par.lnkCap then { u with lnkBuf := [] }
        else { u with lnkBuf := u.lnkBuf ++ [b], lnkLastRx := now }) s := by
  induction bs generalizing s with
  | nil => rfl
  | cons b r ih => rw [lnkAcceptAll, ih, lnkAccept_fst, List.foldl_cons]

section
variable (s : State)

/-- R184: gathering neither answers nor configures. -/
theorem lnkGather_frame :
    (lnkGather s).resPort = s.resPort ∧ (lnkGather s).cfgSilenceMs = s.cfgSilenceMs := by
  obtain ⟨buf, last, hg, -⟩ := lnkAcceptAll_cases s.env.now s.afterNow.env.serRead s.afterNow.afterSerRead
  rw [lnkGather, hg]
  exact ⟨rfl, rfl⟩

/-- R184: the silence test is made on what was gathered, and the frame delivered is the whole buffer. -/
theorem lnkPollOp_eq :
    lnkPollOp s =
      if (lnkGather s).lineSilent s.env.now then
        ({ lnkGather s with lnkBuf := [] }, some (lnkGather s).lnkBuf)
      else (lnkGather s, none) := by
  rw [lnkPollOp, State.lnkLen, Memory.read_all, Memory.setLen_zero]

/-- R184: the poll's two ends, with the answer in its bytes. -/
theorem exec_lnkPoll_next :
    exec .lnkPoll s =
      if 0 < (lnkGather s).lnkLen ∧ s.cfgSilenceMs.toNat < (s.env.now - (lnkGather s).lnkLastRx).toNat then
        .next { lnkGather s with
          lnkBuf := [], resPort := s.resPort ++ [0x00 :: 0x01 :: encS (lnkGather s).lnkBuf] }
      else .next { lnkGather s with resPort := s.resPort ++ [[0x00, 0x00]] } := by
  obtain ⟨hport, hsilence⟩ := lnkGather_frame s
  rw [exec_lnkPoll, lnkPollOp_eq, finish_ret, ← hport, ← hsilence]
  by_cases hsilent : (lnkGather s).lineSilent s.env.now = true
  · rw [if_pos hsilent, if_pos (State.lineSilent_iff.mp hsilent)]; rfl
  · rw [if_neg hsilent, if_neg (mt State.lineSilent_iff.mpr hsilent)]; rfl

end

/-! ## The statements -/

/-- Settles O25. The fold of the statement is what the poll gathers, by induction over the bytes read. -/
theorem lnkPollReadsThenTestsSilence : Obligations.LnkPollReadsThenTestsSilence := by
  unfold Obligations.LnkPollReadsThenTestsSilence
  refine ⟨rfl, fun s g hg => ?_⟩
  have hgather : lnkGather s = g := (lnkAcceptAll_eq_foldl ..).trans hg.symm
  rw [exec_lnkPoll_next, hgather]

end Sys2Proof.Machine
end

section
/-!
The TCP frame assembler (R211, R212): the condition TFA.ISCOMPLETE answers, and the next state of TFA.APPEND and
TFA.ISCOMPLETE, whole.
-/

namespace Sys2Proof.Machine

/-! ## Completeness -/

/-- R212: the declared length by its two bytes. -/
theorem frameComplete_eq_decide (m : Memory) :
    frameComplete m =
      decide (7 ≤ m.length ∧ 6 + ((m.getD 4 0).toNat * 256 + (m.getD 5 0).toNat) ≤ m.length) := by
  rw [Bool.eq_iff_iff, decide_eq_true_iff, frameComplete_iff, be16_toNat]

/-! ## The next state of each operation -/

section
variable (s : State)

/-- R211: the letter `H` is high byte first (R116). -/
theorem exec_tfaAppend_next (chunk : List Byte) :
    exec (.tfaAppend chunk) s = .next { s with
      tcpBuf := s.tcpBuf ++ chunk.take (tfaRoom chunk s)
      resPort := s.resPort ++
        [[0x00, hi8 (BitVec.ofNat 16 (tfaRoom chunk s)), lo8 (BitVec.ofNat 16 (tfaRoom chunk s))]] } := by
  rw [exec_tfaAppend, tfaAppendOp_eq]; rfl

/-- R212: only the answer is new. -/
theorem exec_tfaIscomplete_next :
    exec .tfaIscomplete s = .next { s with
      resPort := s.resPort ++
        [[0x00, if 7 ≤ s.tfaLen ∧ 6 + ((s.tcpBuf.getD 4 0).toNat * 256 + (s.tcpBuf.getD 5 0).toNat) ≤ s.tfaLen
          then 0x01 else 0x00]] } := by
  rw [exec_tfaIscomplete, tfaIscompleteOp, finish_ret, frameComplete_eq_decide, encBool_decide, State.tfaLen]

end

/-! ## The statements -/

/-- Settles O28. The room is the statement's count, with the capacity of R9 as a number. -/
theorem tfaAppendTakesWhatFits : Obligations.TfaAppendTakesWhatFits := by
  unfold Obligations.TfaAppendTakesWhatFits
  refine ⟨?command, ?next⟩
  case command => exact fun _ => rfl
  case next =>
    intro chunk s k hk
    have hroom : tfaRoom chunk s = k := by rw [tfaRoom, Config.TCP_CAP_eq, hk]
    rw [exec_tfaAppend_next, hroom]

/-- Settles O29. -/
theorem tfaIscompleteAnswer : Obligations.TfaIscompleteAnswer := by
  unfold Obligations.TfaIscompleteAnswer
  exact ⟨rfl, exec_tfaIscomplete_next⟩

end Sys2Proof.Machine
end

section
/-!
The MBAP header codec (R231, R232): what MBAP.PARSE answers to a short frame and to seven bytes or more, the header by its
bytes, and the next state of MBAP.PARSE and MBAP.BUILD, whole.
-/

namespace Sys2Proof.Machine

/-! ## Fields by their bytes -/

@[simp] theorem hi8_half (hi lo : Byte) : hi8 (half hi lo) = hi := BitVec.extractLsb'_append_eq_left

@[simp] theorem lo8_half (hi lo : Byte) : lo8 (half hi lo) = lo := BitVec.extractLsb'_append_eq_right

theorem half_eq_zero_iff {hi lo : Byte} : half hi lo = 0 ↔ hi = 0 ∧ lo = 0 := by
  constructor
  · intro h
    have hhi := congrArg hi8 h
    have hlo := congrArg lo8 h
    rw [hi8_half] at hhi
    rw [lo8_half] at hlo
    exact ⟨hhi, hlo⟩
  · rintro ⟨rfl, rfl⟩
    rfl

/-- R231: the PDU length is the number one below the length field. -/
theorem half_sub_one {hi lo : Byte} (h : half hi lo ≠ 0) :
    half hi lo - 1 = BitVec.ofNat 16 (hi.toNat * 256 + lo.toNat - 1) := by
  rw [← half_toNat, ← (pred_toNat h).1, BitVec.ofNat_toNat, BitVec.setWidth_eq]

/-- R232: the length field of a PDU that is not too large fits in its low byte. -/
theorem beBytes_add_one {l : Half} (h : l.toNat ≤ 253) : beBytes (l + 1) = [0x00, BitVec.ofNat 8 (l.toNat + 1)] := by
  have hl : l + 1 = half 0x00 (BitVec.ofNat 8 (l.toNat + 1)) := by
    have hone : (1 : Half).toNat = 1 := rfl
    have hzero : (0x00 : Byte).toNat = 0 := rfl
    apply BitVec.eq_of_toNat_eq
    rw [half_toNat, BitVec.toNat_add, BitVec.toNat_ofNat, hone, hzero]
    omega
  rw [hl, beBytes, hi8_half, lo8_half]

/-! ## The header -/

theorem mbapParse_short {frame : List Byte} (h : frame.length < 7) : mbapParse frame = .error .invalidMbapHeader :=
  if_pos h

/-- R231: past the length check the answer is decided by the first seven bytes. -/
theorem mbapParse_cons (t1 t0 p1 p0 l1 l0 u : Byte) (r : List Byte) :
    mbapParse (t1 :: t0 :: p1 :: p0 :: l1 :: l0 :: u :: r) =
      if p1 ≠ 0 ∨ p0 ≠ 0 ∨ (l1 = 0 ∧ l0 = 0) then .error .invalidMbapHeader
      else .ok (half t1 t0, u, BitVec.ofNat 16 (l1.toNat * 256 + l0.toNat - 1)) := by
  have hlen : ¬(t1 :: t0 :: p1 :: p0 :: l1 :: l0 :: u :: r).length < 7 := by simp
  rw [mbapParse, if_neg hlen]
  change (if half p1 p0 ≠ 0 then .error .invalidMbapHeader
    else if half l1 l0 = 0 then .error .invalidMbapHeader
    else .ok (half t1 t0, u, half l1 l0 - 1) : Answer (Half × Byte × Half)) = _
  by_cases hpid : half p1 p0 = 0
  · obtain ⟨rfl, rfl⟩ := half_eq_zero_iff.mp hpid
    by_cases hfield : half l1 l0 = 0
    · rw [if_neg (not_not.mpr hpid), if_pos hfield, if_pos (.inr (.inr (half_eq_zero_iff.mp hfield)))]
    · rw [if_neg (not_not.mpr hpid), if_neg hfield, if_neg (by simpa using mt half_eq_zero_iff.mpr hfield),
        half_sub_one hfield]
  · have hbytes : p1 ≠ 0 ∨ p0 ≠ 0 := not_and_or.mp (mt half_eq_zero_iff.mpr hpid)
    rw [if_pos hpid, if_pos (or_assoc.mp (.inl hbytes))]

/-- R232: the header by its seven bytes. -/
theorem mbapHeader_eq (tid : Half) (uid : Byte) {l : Half} (h : l.toNat ≤ 253) :
    mbapHeader tid uid l = [hi8 tid, lo8 tid, 0x00, 0x00, 0x00, BitVec.ofNat 8 (l.toNat + 1), uid] := by
  rw [mbapHeader, beBytes_add_one h]; rfl

/-- R116: the header's length as the prefix of a letter `S`. -/
theorem encS_mbapHeader (tid : Half) (uid : Byte) (l : Half) :
    encS (mbapHeader tid uid l) = [0x00, 0x07] ++ mbapHeader tid uid l := by
  have hlen : (mbapHeader tid uid l).length = 7 := rfl
  rw [encS, hlen]; rfl

/-! ## The next state of each operation -/

/-- R231: only the answer is new. -/
theorem exec_mbapParse_next (frame : List Byte) (s : State) :
    exec (.mbapParse frame) s =
      .next { s with resPort := s.resPort ++ [(mbapParse frame).bytes encHBH] } := rfl

/-- R232: the answer is the letter `S` of seven bytes. -/
theorem exec_mbapBuild_next (tid : Half) (uid : Byte) (l : Half) (s : State) :
    exec (.mbapBuild tid uid l) s =
      if 253 < l.toNat then .next { s with resPort := s.resPort ++ [[0x05]] }
      else .next { s with
        tcpTx := mbapHeader tid uid l, resPort := s.resPort ++ [[0x00, 0x00, 0x07] ++ mbapHeader tid uid l] } := by
  rw [exec_mbapBuild, mbapBuildOp_eq]
  by_cases hlarge : 253 < l.toNat
  · rw [if_pos hlarge, if_pos hlarge, finish_error]; rfl
  · rw [if_neg hlarge, if_neg hlarge, finish, Answer.bytes, encS_mbapHeader]; rfl

/-! ## The statements -/

/-- Settles O32. The bytes of the answer are the two fields' own bytes around the unit id. -/
theorem mbapParseHeader : Obligations.MbapParseHeader := by
  unfold Obligations.MbapParseHeader
  refine ⟨fun _ => rfl, ?short, ?header⟩
  case short =>
    intro frame s h
    rw [exec_mbapParse_next, mbapParse_short h]; rfl
  case header =>
    intro t1 t0 p1 p0 l1 l0 u r s
    rw [exec_mbapParse_next, mbapParse_cons]
    by_cases hbad : p1 ≠ 0 ∨ p0 ≠ 0 ∨ (l1 = 0 ∧ l0 = 0)
    · rw [if_pos hbad, if_pos hbad]; rfl
    · rw [if_neg hbad, if_neg hbad, Answer.bytes]
      simp [encHBH, encH, encB, beBytes]

/-- Settles O33. -/
theorem mbapBuildHeader : Obligations.MbapBuildHeader := by
  unfold Obligations.MbapBuildHeader
  refine ⟨fun _ _ _ => rfl, ?next⟩
  case next =>
    rintro tid uid l s h rfl
    rw [exec_mbapBuild_next]
    by_cases hlarge : 253 < l.toNat
    · rw [if_pos hlarge, if_pos hlarge]
    · rw [if_neg hlarge, if_neg hlarge, mbapHeader_eq tid uid (Nat.le_of_not_lt hlarge)]

end Sys2Proof.Machine
end

section
/-!
The PDU builder (R252, R253, R254): what PDU.STRIP answers to a body with a first byte, the response of
PDU.TCPRESP byte for byte, and the next state of PDU.WRAP, PDU.STRIP and PDU.TCPRESP, whole.
-/

namespace Sys2Proof.Machine

/-! ## The answers -/

theorem pduStrip_nil : pduStrip [] = .error .frameTooShort := rfl

/-- R253: the slice from the second byte on is the body's tail. -/
theorem pduStrip_cons (uid : Byte) (pdu : List Byte) :
    pduStrip (uid :: pdu) = if 254 < pdu.length + 1 then .error .pduTooLarge else .ok (uid, pdu) := by
  have hnonempty : ¬(uid :: pdu).length < 1 := by simp
  have hrest : slice (uid :: pdu) 1 (uid :: pdu).length = pdu := by simp [slice]
  rw [pduStrip, if_neg hnonempty, hrest]; rfl

/-- R232, R254: the header's length field is one more than the PDU's length, counted in 16 bits either way. -/
theorem mbapHeader_append_eq_tcpFrame (tid : Half) (uid : Byte) (pdu : List Byte) :
    mbapHeader tid uid (BitVec.ofNat 16 pdu.length) ++ pdu = tcpFrame tid uid pdu := by
  rw [tcpFrame, BitVec.ofNat_add]; rfl

/-! ## The next state of each operation -/

section
variable (s : State)

/-- R252: only the answer is new. -/
theorem exec_pduWrap_next (uid : Byte) (pdu : List Byte) :
    exec (.pduWrap uid pdu) s =
      if 253 < pdu.length then .next { s with resPort := s.resPort ++ [[0x05]] }
      else .next { s with resPort := s.resPort ++ [0x00 :: encS (uid :: pdu)] } := by
  rw [exec_pduWrap, pduWrapOp, pduWrap, Config.PDU_MAX_eq]
  by_cases hlarge : 253 < pdu.length
  · rw [if_pos hlarge, if_pos hlarge, finish_error]; rfl
  · rw [if_neg hlarge, if_neg hlarge]; rfl

/-- R253: only the answer is new. -/
theorem exec_pduStrip_next (body : List Byte) :
    exec (.pduStrip body) s = .next { s with resPort := s.resPort ++ [(pduStrip body).bytes encBS] } := rfl

/-- R254: the frame is both what TCPTX holds and what is answered. -/
theorem exec_pduTcpresp_next (tid : Half) (uid : Byte) (pdu : List Byte) :
    exec (.pduTcpresp tid uid pdu) s =
      if 253 < pdu.length then .next { s with resPort := s.resPort ++ [[0x05]] }
      else .next { s with
        tcpTx := tcpFrame tid uid pdu, resPort := s.resPort ++ [0x00 :: encS (tcpFrame tid uid pdu)] } := by
  rw [exec_pduTcpresp, pduTcprespOp_eq, mbapHeader_append_eq_tcpFrame]
  by_cases hlarge : 253 < pdu.length
  · rw [if_pos hlarge, if_pos hlarge, finish_error]; rfl
  · rw [if_neg hlarge, if_neg hlarge]; rfl

end

/-! ## The statements -/

/-- Settles O36. -/
theorem pduWrapUnitId : Obligations.PduWrapUnitId := by
  unfold Obligations.PduWrapUnitId
  exact ⟨fun _ _ => rfl, fun uid pdu s => exec_pduWrap_next s uid pdu⟩

/-- Settles O37. -/
theorem pduStripUnitId : Obligations.PduStripUnitId := by
  unfold Obligations.PduStripUnitId
  refine ⟨fun _ => rfl, ?empty, ?nonempty⟩
  case empty =>
    intro s
    rw [exec_pduStrip_next, pduStrip_nil]; rfl
  case nonempty =>
    intro uid pdu s
    rw [exec_pduStrip_next, pduStrip_cons]
    by_cases hlarge : 254 < pdu.length + 1
    · rw [if_pos hlarge, if_pos hlarge]; rfl
    · rw [if_neg hlarge, if_neg hlarge]; rfl

/-- Settles O38. -/
theorem pduTcprespFrame : Obligations.PduTcprespFrame := by
  unfold Obligations.PduTcprespFrame
  exact ⟨fun _ _ _ => rfl, fun tid uid pdu s => exec_pduTcpresp_next s tid uid pdu⟩

end Sys2Proof.Machine
end

section
/-!
The gateway sequencer's bad reply (R276): how RTU.PARSE refuses a frame, and the next state of an Awaiting GW.STEP whose
delivered frame it refuses, whole.
-/

namespace Sys2Proof.Machine

/-! ## What RTU.PARSE refuses -/

section
variable {f : List Byte} (s : State)

/-- R162: the first check, before anything is written. -/
theorem rtuParseOp_short (h : f.length < 4) : rtuParseOp f s = (s, .error .frameTooShort) :=
  if_pos h

/-- R162: the second check, before anything is written. -/
theorem rtuParseOp_long (h : 256 < f.length) : rtuParseOp f s = (s, .error .frameOverflow) := by
  obtain ⟨-, hshort⟩ | ⟨he, -⟩ | ⟨-, h256, -⟩ := rtuParseOp_cases f s
  · omega
  · exact he
  · omega

/-- R162: past the length checks CRC holds what was computed, also when the frame holds another checksum. -/
theorem rtuParseOp_mismatch (h4 : 4 ≤ f.length) (h256 : f.length ≤ 256)
    (hcrc : crc16 (f.take (f.length - 2)) ≠ le16 f (f.length - 2)) :
    rtuParseOp f s = ({ s with crc := crc16 (f.take (f.length - 2)) }, .error .rtuCrcMismatch) := by
  obtain ⟨-, hshort⟩ | ⟨-, hlong⟩ | ⟨-, -, ⟨he, -⟩ | ⟨-, hmatch⟩⟩ := rtuParseOp_cases f s
  · omega
  · omega
  · exact he
  · exact absurd hmatch hcrc

end

/-! ## The step -/

/-- R184: LNK.POLL inside a step posts nothing. -/
@[simp] theorem lnkPollOp_resPort (s : State) : (lnkPollOp s).1.resPort = s.resPort := by
  obtain ⟨buf, last, hpoll, -⟩ := lnkPollOp_cases s
  rw [hpoll]

/-- R274, R278: a delivered frame is the reply, whatever the deadline. -/
theorem gwStepOp_delivered {s s1 : State} {f : List Byte} (hawait : s.gwState = .awaiting)
    (hpoll : lnkPollOp s = (s1, some f)) : gwStepOp s = gwReply f s1 := by
  rw [gwStepOp_awaiting s hawait, gwAwaitStep, hpoll]

/-- R276: the error of RTU.PARSE ends the cycle and is the step's own. -/
theorem gwReply_of_error {f : List Byte} {s t : State} {e : ErrorKind} (hparse : rtuParseOp f s = (t, .error e)) :
    gwReply f s = (gwEnd t, .error e) := by
  rw [gwReply, hparse]; rfl

/-- R276: the next state, for every error of RTU.PARSE and whatever it leaves in CRC. -/
theorem exec_gwStep_badReply {s s1 : State} {f : List Byte} {crc : Half} {e : ErrorKind}
    (hawait : s.gwState = .awaiting) (hpoll : lnkPollOp s = (s1, some f))
    (hparse : rtuParseOp f s1 = ({ s1 with crc := crc }, .error e)) :
    exec .gwStep s = .next { s1 with
      crc := crc, tcpBuf := [], txn := none, gwState := .idle, resPort := s.resPort ++ [[e.code]] } := by
  have hport : s1.resPort = s.resPort := by rw [← lnkPollOp_resPort s, hpoll]
  rw [exec_gwStep, gwStepOp_delivered hawait hpoll, gwReply_of_error hparse, finish_error, gwEnd_resPort, hport]
  rfl

/-! ## The statement -/

/-- Settles O46. A length error leaves CRC as it was; a mismatch leaves the computed checksum there. -/
theorem gwStepDropsBadReply : Obligations.GwStepDropsBadReply := by
  unfold Obligations.GwStepDropsBadReply
  refine fun s s1 f hawait hpoll => ⟨?short, ?long, ?mismatch⟩
  case short => exact fun h => exec_gwStep_badReply hawait hpoll (rtuParseOp_short s1 h)
  case long => exact fun h => exec_gwStep_badReply hawait hpoll (rtuParseOp_long s1 h)
  case mismatch => exact fun h4 h256 hcrc => exec_gwStep_badReply hawait hpoll (rtuParseOp_mismatch s1 h4 h256 hcrc)

end Sys2Proof.Machine
end

section
/-!
The configuration registers (R301): which values CFG.SET takes for each index.
-/

namespace Sys2Proof.Machine

section
variable (s : State)

/-! ## What CFG.SET takes -/

/-- R48, R301: the silence may be zero. -/
theorem cfgSetOp_silence (value : Millis) :
    cfgSetOp 0x00 value s =
      if 2147483647 < value.toNat then s.raise .illegalOp
      else ({ s with cfgSilenceMs := value } : State).ret () := rfl

/-- R49, R301: the timeout may not be zero. -/
theorem cfgSetOp_timeout (value : Millis) :
    cfgSetOp 0x01 value s =
      if value.toNat = 0 ∨ 2147483647 < value.toNat then s.raise .illegalOp
      else ({ s with cfgRtuTimeoutMs := value } : State).ret () := by
  have hzero : value.toNat = 0 ↔ value = 0 := BitVec.toNat_inj (y := 0)
  simp only [hzero]; rfl

/-- R301: there is no third register. -/
theorem cfgSetOp_noRegister {idx : Byte} (value : Millis) (h0 : idx ≠ 0x00) (h1 : idx ≠ 0x01) :
    cfgSetOp idx value s = s.raise .illegalOp := by
  rw [cfgSetOp, if_neg h0, if_neg h1]

end

/-! ## The statement -/

/-- Settles O53. Each index goes through its own equation; the status byte follows from the answer alone. -/
theorem cfgSetWritesOneRegister : Obligations.CfgSetWritesOneRegister := by
  unfold Obligations.CfgSetWritesOneRegister
  refine ⟨fun _ _ => rfl, ?silence, ?timeout, ?noRegister⟩
  case silence =>
    intro value s
    rw [exec_cfgSet, cfgSetOp_silence]
    by_cases hlarge : 2147483647 < value.toNat
    · rw [if_pos hlarge, if_pos hlarge, State.raise, finish_error]; rfl
    · rw [if_neg hlarge, if_neg hlarge, finish_ret]; rfl
  case timeout =>
    intro value s
    rw [exec_cfgSet, cfgSetOp_timeout]
    by_cases hbad : value.toNat = 0 ∨ 2147483647 < value.toNat
    · rw [if_pos hbad, if_pos hbad, State.raise, finish_error]; rfl
    · rw [if_neg hbad, if_neg hbad, finish_ret]; rfl
  case noRegister =>
    intro idx value s h0 h1
    rw [exec_cfgSet, cfgSetOp_noRegister s value h0 h1, State.raise, finish_error]; rfl

end Sys2Proof.Machine
end

section
/-!
The decoder's converse (R116, R120 to R123): every reader takes exactly the bytes its letters write, so that a command that is
read is the command of what was read; and the step around it (R115).
-/

namespace Sys2Proof

open Sys2Proof.Machine

/-- Whatever the reader gives, it stands in the relation to the bytes read. -/
def Gives (read : List Byte → Except DecodeRefusal Instr) (P : Instr → List Byte → Prop) : Prop :=
  ∀ r i, read r = .ok i → P i r

theorem error_ne_ok {e : DecodeRefusal} {i : Instr} : (.error e : Except DecodeRefusal Instr) ≠ .ok i := by
  intro h
  cases h

theorem encH_half (hi lo : Byte) : encH (half hi lo) = [hi, lo] := by rw [encH, beBytes, hi8_half, lo8_half]

theorem encW_full (b3 b2 b1 b0 : Byte) : encW (full b3 b2 b1 b0) = [b3, b2, b1, b0] := by
  have h3 : (full b3 b2 b1 b0).extractLsb' 24 8 = b3 :=
    (BitVec.extractLsb'_append_eq_of_le (xhi := b3 ++ b2 ++ b1) (by decide)).trans
      ((BitVec.extractLsb'_append_eq_of_le (xhi := b3 ++ b2) (by decide)).trans BitVec.extractLsb'_append_eq_left)
  have h2 : (full b3 b2 b1 b0).extractLsb' 16 8 = b2 :=
    (BitVec.extractLsb'_append_eq_of_le (xhi := b3 ++ b2 ++ b1) (by decide)).trans
      ((BitVec.extractLsb'_append_eq_of_le (xhi := b3 ++ b2) (by decide)).trans BitVec.extractLsb'_append_eq_right)
  have h1 : (full b3 b2 b1 b0).extractLsb' 8 8 = b1 :=
    (BitVec.extractLsb'_append_eq_of_le (xhi := b3 ++ b2 ++ b1) (by decide)).trans BitVec.extractLsb'_append_eq_right
  have h0 : (full b3 b2 b1 b0).extractLsb' 0 8 = b0 := BitVec.extractLsb'_append_eq_right
  exact congrArg₂ List.cons h3 (congrArg₂ List.cons h2 (congrArg₂ List.cons h1 (congrArg₂ List.cons h0 rfl)))

section
variable {P : Instr → List Byte → Prop}

theorem done_gives {i : Instr} (h : P i []) : Gives (fun r => done r i) P := by
  intro r j hr
  induction r with
  | nil => exact Except.ok.inj hr ▸ h
  | cons => exact absurd hr error_ne_ok

/-! ## A letter's reader takes the bytes the letter writes -/

theorem takeB_gives {rest : Byte → List Byte → Except DecodeRefusal Instr}
    (h : ∀ b, Gives (rest b) fun i left => P i (encB b ++ left)) : Gives (readThen takeB rest) P := by
  intro r i hr
  induction r with
  | nil => exact absurd hr error_ne_ok
  | cons b r => exact h b r i hr

theorem takeH_gives {rest : Half → List Byte → Except DecodeRefusal Instr}
    (h : ∀ v, Gives (rest v) fun i left => P i (encH v ++ left)) : Gives (readThen takeH rest) P := by
  intro r i hr
  rcases r with _ | ⟨hi, _ | ⟨lo, r⟩⟩
  case cons.cons => exact (congrArg (· ++ r) (encH_half hi lo)).subst (motive := P i) (h _ r i hr)
  all_goals exact absurd hr error_ne_ok

theorem takeW_gives {rest : Millis → List Byte → Except DecodeRefusal Instr}
    (h : ∀ w, Gives (rest w) fun i left => P i (encW w ++ left)) : Gives (readThen takeW rest) P := by
  intro r i hr
  rcases r with _ | ⟨b3, _ | ⟨b2, _ | ⟨b1, _ | ⟨b0, r⟩⟩⟩⟩
  case cons.cons.cons.cons => exact (congrArg (· ++ r) (encW_full b3 b2 b1 b0)).subst (motive := P i) (h _ r i hr)
  all_goals exact absurd hr error_ne_ok

/-- The string read is as long as its prefix says, so the prefix is the one the encoder writes. -/
theorem takeS_gives {rest : List Byte → List Byte → Except DecodeRefusal Instr}
    (h : ∀ s, fitsPrefix s = true → Gives (rest s) fun i left => P i (encS s ++ left)) : Gives (readThen takeS rest) P := by
  intro r i hr
  rcases r with _ | ⟨hi, _ | ⟨lo, body⟩⟩
  case cons.cons =>
    by_cases hn : (half hi lo).toNat ≤ body.length
    · have hlen : (body.take (half hi lo).toNat).length = (half hi lo).toNat := List.length_take_of_le hn
      have hprefix : BitVec.ofNat 16 (body.take (half hi lo).toNat).length = half hi lo :=
        (congrArg (BitVec.ofNat 16) hlen).trans ((BitVec.ofNat_toNat ..).trans (BitVec.setWidth_eq _))
      have hbytes : encS (body.take (half hi lo).toNat) ++ body.drop (half hi lo).toNat = hi :: lo :: body :=
        (List.append_assoc ..).trans ((congrArg₂ (fun v s => encH v ++ s) hprefix (List.take_append_drop ..)).trans
          (congrArg (· ++ body) (encH_half hi lo)))
      exact hbytes.subst (motive := P i)
        (h _ (decide_eq_true (hlen.trans_lt (half hi lo).isLt)) _ i ((readThen_of_ok (if_pos hn)).symm.trans hr))
    · exact absurd ((readThen_of_error (if_neg hn)).symm.trans hr) error_ne_ok
  all_goals exact absurd hr error_ne_ok

/-! ## A format's reader takes the bytes the format writes -/

theorem gives_of_eq {read read' : List Byte → Except DecodeRefusal Instr} (heq : read = read') (h : Gives read' P) :
    Gives read P := heq ▸ h

theorem readB_gives {mk : Byte → Instr} (h : ∀ b, P (mk b) (encB b)) : Gives (readB mk) P :=
  gives_of_eq (readB_eq mk) (takeB_gives fun b => done_gives (h b))

theorem readS_gives {mk : List Byte → Instr} (h : ∀ s, fitsPrefix s = true → P (mk s) (encS s)) : Gives (readS mk) P :=
  gives_of_eq (readS_eq mk) (takeS_gives fun s hs => done_gives ((List.append_nil (encS s)).symm ▸ h s hs))

theorem readSH_gives {mk : List Byte → Half → Instr} (h : ∀ s v, fitsPrefix s = true → P (mk s v) (encS s ++ encH v)) :
    Gives (readSH mk) P :=
  gives_of_eq (readSH_eq mk) (takeS_gives fun s hs => takeH_gives fun v => done_gives (h s v hs))

theorem readBS_gives {mk : Byte → List Byte → Instr} (h : ∀ b s, fitsPrefix s = true → P (mk b s) (encB b ++ encS s)) :
    Gives (readBS mk) P :=
  gives_of_eq (readBS_eq mk) (takeB_gives fun b => readS_gives (h b))

end

/-- The operation is well formed, and the command of the code and the bytes is its own. -/
def Encodes (op : Byte) (i : Instr) (r : List Byte) : Prop := i.wf = true ∧ encode i = op :: r

theorem encodes_of_eq {op : Byte} {i : Instr} {r : List Byte} (hwf : i.wf = true) (h : encode i = op :: r) : Encodes op i r :=
  ⟨hwf, h⟩

/-- A row of R120: the code selects the reader of the operation's own format. -/
theorem decodeOpsel_gives (j : Instr) : Gives (decodeOpsel j.opcode.toNat) (Encodes j.opcode) := by
  induction j with
  | crcInit | crcRead | lnkPoll | tfaIscomplete | tfaReset | gwPoll | gwStep | sysReset =>
    exact done_gives (encodes_of_eq rfl rfl)
  | crcByte | lnkRxbyte => exact readB_gives fun _ => encodes_of_eq rfl rfl
  | crcCompute | rtuParse | lnkSend | tfaAppend | mbapParse | pduStrip =>
    exact readS_gives fun _ hs => encodes_of_eq hs rfl
  | crcVerify | pduExtract => exact readSH_gives fun _ _ hs => encodes_of_eq hs rfl
  | rtuBuild | pduWrap => exact readBS_gives fun _ _ hs => encodes_of_eq hs rfl
  | mbapBuild =>
    exact gives_of_eq (readHBH_eq _) (takeH_gives fun _ => takeB_gives fun _ => takeH_gives fun _ =>
      done_gives (encodes_of_eq rfl rfl))
  | pduTcpresp => exact gives_of_eq (readHBS_eq _) (takeH_gives fun _ => readBS_gives fun _ _ hs => encodes_of_eq hs rfl)
  | cfgSet => exact gives_of_eq (readBW_eq _) (takeB_gives fun _ => takeW_gives fun _ => done_gives (encodes_of_eq rfl rfl))

/-- One operation of each code (R120). -/
noncomputable def eachCode : List Instr :=
  [.crcInit, .crcByte 0, .crcCompute [], .crcVerify [] 0, .crcRead, .rtuBuild 0 [], .rtuParse [], .lnkPoll, .lnkSend [],
    .lnkRxbyte 0, .tfaAppend [], .tfaIscomplete, .tfaReset, .mbapParse [], .mbapBuild 0 0 0, .pduExtract [] 0, .pduWrap 0 [],
    .pduStrip [], .pduTcpresp 0 0 [], .gwPoll, .gwStep, .cfgSet 0 0, .sysReset]

set_option Elab.async false in
theorem code_or_reserved : ∀ n < 32, n ∉ [0x05, 0x06, 0x07, 0x0A, 0x0B, 0x0F, 0x13, 0x16, 0x17] →
    ∃ j ∈ eachCode, j.opcode.toNat = n := by decide +kernel

theorem encode_of_decode {command : List Byte} {i : Instr} (h : decode command = .ok i) :
    i.wf = true ∧ encode i = command := by
  induction command with
  | nil => exact absurd h error_ne_ok
  | cons op r =>
    obtain ⟨hcode, hlt⟩ := not_or.1 fun hrefused =>
      (decode_reserved r hrefused).elim fun _ he => error_ne_ok (he.symm.trans h)
    obtain ⟨j, -, hj⟩ := code_or_reserved _ (Nat.lt_of_not_le hlt) hcode
    obtain rfl := BitVec.eq_of_toNat_eq hj
    exact decodeOpsel_gives j r i ((if_pos (Nat.lt_of_not_le hlt)).symm.trans h)

/-! ## The step around the decoder -/

section
variable {s : State} {command : List Byte} {rest : List (List Byte)}

/-- R280 (log 10): a GW.POLL in progress goes on. -/
theorem step_of_polling (hp : s.gwPolling = true) : step s = .next (gwPollRun s) := if_pos hp

/-- R343 (log 1). -/
theorem step_of_no_command (hp : s.gwPolling = false) (hc : s.cmdPort = []) : step s = .next s := by
  simp [step, hp, hc]

/-- R115: the oldest command is taken off the port, and the rest is exec. -/
theorem step_of_decode_ok {i : Instr} (hp : s.gwPolling = false) (hc : s.cmdPort = command :: rest)
    (hd : decode command = .ok i) : step s = exec i s.takeCommand := by
  simp [step, hp, hc, hd]

end

end Sys2Proof
end

section
/-! Commands (R115, R116, R120 to R123). -/

namespace Sys2Proof.Machine

/-- Settles O1. The commands are given byte by byte, so that the decoder is evaluated on each. -/
theorem specCommandsDecode : Obligations.SpecCommandsDecode := by
  unfold Obligations.SpecCommandsDecode
  decide

/-- Settles O2. The command with nothing behind it is the case of `decode_encode_append` in which no byte is left over. -/
theorem decodeOfEncode : Obligations.DecodeOfEncode := by
  unfold Obligations.DecodeOfEncode
  exact fun _ hwf => decode_encode hwf

/-- Settles O3. Each reader takes exactly the bytes its format writes, and the operation byte is the one that selected it. -/
theorem encodeOfDecode : Obligations.EncodeOfDecode := by
  unfold Obligations.EncodeOfDecode
  exact fun _ _ h => encode_of_decode h

/-- Settles O6. -/
theorem stepRunsDecodedInstruction : Obligations.StepRunsDecodedInstruction := by
  unfold Obligations.StepRunsDecodedInstruction
  exact fun s _ _ i hp hc hd => (step_of_decode_ok hp hc hd).trans
    (congrArg (fun port => exec i { s with cmdPort := port }) (congrArg List.tail hc))

/-- Settles O7: R343 (log 1), R280 (log 10). -/
theorem stepWithoutCommand : Obligations.StepWithoutCommand := by
  unfold Obligations.StepWithoutCommand
  exact ⟨fun _ => step_of_no_command, fun _ => step_of_polling⟩

end Sys2Proof.Machine
end

section
/-!
The next state, whole, of the operations the sections above leave out: SYS.RESET (R303), LNK.RXBYTE (R182), LNK.SEND (R188),
TFA.RESET (R213) and PDU.EXTRACT (R251).
-/

namespace Sys2Proof.Machine

/-- An operation of two ends, with each end's next state. -/
theorem next_finish_ite {α : Type} {enc : α → List Byte} {p : Prop} [Decidable p] {op r r' : State × Answer α}
    (h : op = if p then r else r') :
    (Host.Outcome.next (finish enc op) : Host.Outcome State Fault Refusal) =
      if p then .next (finish enc r) else .next (finish enc r') :=
  h ▸ apply_ite (fun r => Host.Outcome.next (finish enc r)) p r r'

/-- R182: NOW is sampled on both paths (log 15). -/
theorem exec_lnkRxbyte_next (b : Byte) (s : State) :
    exec (.lnkRxbyte b) s =
      if s.lnkLen = s.par.lnkCap then
        .next { s with lnkBuf := [], env := s.env.afterNow, resPort := s.resPort ++ [[0x04]] }
      else .next { s with
        lnkBuf := s.lnkBuf ++ [b], lnkLastRx := s.env.now, env := s.env.afterNow, resPort := s.resPort ++ [[0x00]] } :=
  next_finish_ite (lnkAccept_eq s.env.now b s.afterNow)

/-- R188, R190. -/
theorem exec_lnkSend_next (bytes : List Byte) (s : State) :
    exec (.lnkSend bytes) s =
      if 256 < bytes.length then .next { s with resPort := s.resPort ++ [[0x04]] }
      else .next { s with
        lnkBuf := if s.par.lnkClearOnSend then [] else s.lnkBuf
        lnkDir := .receive
        trace := s.trace ++ sendEvents bytes
        resPort := s.resPort ++ [[0x00]] } :=
  next_finish_ite (lnkSendOp_eq bytes s)

/-- R251: the checks in their order, and the slice by its length. -/
theorem pduExtract_eq (frame : List Byte) (l : Half) :
    pduExtract frame l =
      if 253 < l.toNat then .error .pduTooLarge
      else if frame.length < 7 + l.toNat then .error .frameTooShort
      else .ok ((frame.drop 7).take l.toNat) := by
  rw [pduExtract, slice, Nat.add_sub_cancel_left, Config.PDU_MAX_eq]

theorem exists₂_intro {α β : Type} {P : α → β → Prop} (a : α) (b : β) (h : P a b) : ∃ a b, P a b := ⟨a, b, h⟩

/-! ## The statements -/

/-- Settles O9. After the first SYS.RESET every register already holds what the second would write. -/
theorem sysResetReachesReset : Obligations.SysResetReachesReset := by
  unfold Obligations.SysResetReachesReset
  exact ⟨rfl, fun _ => rfl, fun s t h => Host.Outcome.next.inj h ▸ rfl⟩

/-- Settles O24. -/
theorem lnkRxbyteAppendsOrDiscards : Obligations.LnkRxbyteAppendsOrDiscards := by
  unfold Obligations.LnkRxbyteAppendsOrDiscards
  exact ⟨fun _ => rfl, exec_lnkRxbyte_next⟩

/-- Settles O27. -/
theorem lnkSendBracketsWrite : Obligations.LnkSendBracketsWrite := by
  unfold Obligations.LnkSendBracketsWrite
  exact ⟨fun _ => rfl, exec_lnkSend_next⟩

/-- Settles O30. After the first TFA.RESET there is nothing left to clear. -/
theorem tfaResetClears : Obligations.TfaResetClears := by
  unfold Obligations.TfaResetClears
  exact ⟨rfl, fun _ => rfl, fun s t h => Host.Outcome.next.inj h ▸ rfl⟩

/-- Settles O35. One case for each end of the slice, in the order of its checks. -/
theorem pduExtractSlice : Obligations.PduExtractSlice := by
  unfold Obligations.PduExtractSlice
  exact ⟨fun _ _ => rfl, fun frame l s =>
    (next_finish_ite ((congrArg (Prod.mk s) (pduExtract_eq frame l)).trans (apply_ite ..))).trans
      (congrArg (ite _ _) (next_finish_ite (apply_ite ..)))⟩

end Sys2Proof.Machine
end

section
/-!
What one operation, and with it one step, leaves behind (R18, R23, R31 to R36, R41, R46, R47, R53, R60, R76, R77, R115, R320): said
once, field by field, for all 23 operations. The statements about the whole machine are read off `exec_runs` and `step_evolves`.
-/

namespace Sys2Proof.Machine

/-! ## What is sent -/

theorem tcpFrame_length (tid : Half) (uid : Byte) (pdu : List Byte) : (tcpFrame tid uid pdu).length = pdu.length + 7 :=
  List.length_append.trans (Nat.add_comm _ _)

theorem tcpFrame_fits (tid : Half) (uid : Byte) {pdu : List Byte} (h : pdu.length ≤ 253) :
    (tcpFrame tid uid pdu).length ≤ 260 :=
  (tcpFrame_length tid uid pdu).trans_le (Nat.add_le_add_right h 7)

/-- R100: the length field of a frame, with anything behind it. -/
theorem lengthField_tcpFrame (tid : Half) (uid : Byte) {pdu : List Byte} (trailing : List Byte) (h : pdu.length ≤ 253) :
    (be16 (tcpFrame tid uid pdu ++ trailing) 4).toNat = pdu.length + 1 :=
  (congrArg BitVec.toNat (half_hi8_lo8 _)).trans
    (Nat.mod_eq_of_lt (Nat.lt_of_le_of_lt (Nat.succ_le_succ h) (by decide : 254 < 2 ^ 16)))

theorem legalTcpFrame_tcpFrame (tid : Half) (uid : Byte) {pdu : List Byte} (h : pdu.length ≤ 253) :
    legalTcpFrame (tcpFrame tid uid pdu) := by
  have hlen := tcpFrame_length tid uid pdu
  have hfield := lengthField_tcpFrame tid uid [] h
  rw [List.append_nil] at hfield
  exact ⟨(Nat.le_add_left _ _).trans_eq hlen.symm, tcpFrame_fits tid uid h, half_eq_zero_iff.2 ⟨rfl, rfl⟩,
    hfield.trans (congrArg (· - 6) hlen).symm⟩

/-- Behind the trace a the events b leave the bracket's form as it is. -/
def BracketKept (b a : List Event) : Prop := bracketed a = true → bracketed (a ++ b) = true

theorem bracketKept_absurd {a b : List Event} (h : bracketed a = false) : BracketKept b a :=
  fun ha => absurd (h.symm.trans ha) Bool.false_ne_true

/-- One group at the front: the rest of the trace has the form, whichever of the two groups it is. -/
theorem bracketKept_cons {b r : List Event} (ev : Event) (h : ∀ n, BracketKept b (r.drop n)) : BracketKept b (ev :: r) := by
  induction ev with
  | tcpSend conn f => exact h 0
  | serWrite | serFlush => exact bracketKept_absurd rfl
  | serDir d =>
    induction d with
    | receive => exact bracketKept_absurd rfl
    | transmit =>
      have h3 := h 3
      clear h
      cases r with | nil => exact bracketKept_absurd rfl | cons ev r =>
      induction ev with | serDir | serFlush | tcpSend => exact bracketKept_absurd rfl | serWrite bytes =>
      cases r with | nil => exact bracketKept_absurd rfl | cons ev r =>
      induction ev with | serDir | serWrite | tcpSend => exact bracketKept_absurd rfl | serFlush =>
      cases r with | nil => exact bracketKept_absurd rfl | cons ev r =>
      induction ev with | serWrite | serFlush | tcpSend => exact bracketKept_absurd rfl | serDir d =>
      induction d with | transmit => exact bracketKept_absurd rfl | receive => exact h3

theorem bracketed_append {a b : List Event} (ha : bracketed a = true) (hb : bracketed b = true) :
    bracketed (a ++ b) = true := by
  have hall : ∀ n, BracketKept b (a.drop n) := by
    clear ha
    induction a with
    | nil => exact fun n => by rw [List.drop_nil]; exact fun _ => hb
    | cons ev r ih =>
      intro n
      cases n with
      | zero => exact bracketKept_cons ev ih
      | succ n => exact ih n
  exact hall 0 ha

/-- A write has at most 256 bytes (R188), a TCP response is legal (R101). -/
def WithinBounds : Event → Prop
  | .serDir _ => True
  | .serWrite bytes => bytes.length ≤ 256
  | .serFlush => True
  | .tcpSend _ f => legalTcpFrame f

/-- The trace grows by events in the bracket's form and within their bounds. -/
def Sends (tr tr' : List Event) : Prop := ∃ evs, tr' = tr ++ evs ∧ bracketed evs = true ∧ ∀ ev ∈ evs, WithinBounds ev

theorem Sends.refl (tr : List Event) : Sends tr tr := ⟨[], (List.append_nil tr).symm, rfl, List.forall_mem_nil _⟩

theorem Sends.trans {a b c : List Event} (h : Sends a b) (h' : Sends b c) : Sends a c := by
  obtain ⟨evs, rfl, hform, hbound⟩ := h
  obtain ⟨evs', rfl, hform', hbound'⟩ := h'
  exact ⟨evs ++ evs', List.append_assoc .., bracketed_append hform hform', List.forall_mem_append.2 ⟨hbound, hbound'⟩⟩

/-- R83, R188. -/
theorem Sends.transmission (tr : List Event) {bytes : List Byte} (h : bytes.length ≤ 256) :
    Sends tr (tr ++ sendEvents bytes) :=
  ⟨_, rfl, rfl, List.forall_mem_cons.2 ⟨trivial, List.forall_mem_cons.2 ⟨h, List.forall_mem_cons.2 ⟨trivial, List.forall_mem_singleton.2 trivial⟩⟩⟩⟩

theorem Sends.response (tr : List Event) (conn : Conn) {f : List Byte} (h : legalTcpFrame f) :
    Sends tr (tr ++ [.tcpSend conn f]) :=
  ⟨_, rfl, rfl, List.forall_mem_singleton.2 h⟩

/-! ## One operation -/

/-- The invariant without the model's own clause on GW.POLL. -/
def SpecInv (s : State) : Prop := s.BuffersFit ∧ s.TxnMatchesState ∧ s.DriverReceives ∧ s.ConfigLegal

/-- What every operation keeps of the machine: the invariant, the premise on NOW and the form of the trace. -/
def Evolves (s t : State) : Prop :=
  (SpecInv s → SpecInv t) ∧ (s.env.NowMonotone → t.env.NowMonotone) ∧ Sends s.trace t.trace

theorem Evolves.refl (s : State) : Evolves s s := ⟨id, id, .refl _⟩

theorem Evolves.trans {s t u : State} (h : Evolves s t) (h' : Evolves t u) : Evolves s u :=
  ⟨h'.1 ∘ h.1, h'.2.1 ∘ h.2.1, h.2.2.trans h'.2.2⟩

theorem Memory.wf_imp {m m' : Memory} {cap cap' : Nat} (h : m.length ≤ cap → m'.length ≤ cap') (hm : m.wf cap = true) :
    m'.wf cap' = true :=
  Memory.wf_iff.2 (h (Memory.wf_iff.1 hm))

/-- The machine's fields one by one: the buffers, the transaction, the driver, the configuration, the premise and the trace. -/
theorem evolves_of {s t : State} (hlnk : s.lnkLen ≤ s.par.lnkCap → t.lnkLen ≤ t.par.lnkCap)
    (htcp : s.tfaLen ≤ 260 → t.tfaLen ≤ 260) (htx : s.tcpTx.length ≤ 260 → t.tcpTx.length ≤ 260)
    (hpdu : (∀ x ∈ s.txn, Memory.wf Config.PDU_MAX x.pdu = true) → ∀ x ∈ t.txn, Memory.wf Config.PDU_MAX x.pdu = true)
    (hmatch : s.TxnMatchesState → t.TxnMatchesState) (hdir : s.DriverReceives → t.DriverReceives)
    (hcfg : s.ConfigLegal → t.ConfigLegal) (hnow : s.env.NowMonotone → t.env.NowMonotone)
    (hsends : Sends s.trace t.trace) : Evolves s t :=
  ⟨And.imp (And.imp (Memory.wf_imp hlnk) (And.imp (Memory.wf_imp htcp) (And.imp (Memory.wf_imp htx) hpdu)))
    (And.imp hmatch (And.imp hdir hcfg)), hnow, hsends⟩

/-- s without the fields i is named for: states equal in this are equal in all others. -/
noncomputable def State.masked (i : Instr) (s : State) : State where
  crc := bif writesCrc i then 0 else s.crc
  lnkBuf := bif reachesLnkBuf i then [] else s.lnkBuf
  lnkLastRx := bif writesLastRx i then 0 else s.lnkLastRx
  lnkDir := bif writesDirection i then .receive else s.lnkDir
  tcpBuf := bif reachesTcpBuf i then [] else s.tcpBuf
  tcpTx := bif reachesTcpTx i then [] else s.tcpTx
  gwState := bif writesSequencer i then .idle else s.gwState
  txn := bif writesSequencer i then none else s.txn
  cfgSilenceMs := bif writesConfig i then 0 else s.cfgSilenceMs
  cfgRtuTimeoutMs := bif writesConfig i then 0 else s.cfgRtuTimeoutMs
  cmdPort := s.cmdPort
  resPort := s.resPort
  trace := bif emitsEvents i then [] else s.trace
  gwPolling := bif writesSequencer i then false else s.gwPolling
  env := bif readsEnvironment i then State.reset.env else s.env
  par := s.par

theorem eq_of_cond_eq {α : Type} {b : Bool} {d x y : α} (h : (bif b then d else x) = bif b then d else y) (hb : b = false) :
    x = y := by
  subst hb
  exact h

/-- What an operation leaves of s, its answer not yet posted. -/
def Leaves (i : Instr) (s t : State) : Prop := t.masked i = s.masked i ∧ Evolves s t

theorem not_txn {p : Txn → Prop} : ∀ x ∈ (none : Option Txn), p x := fun _ h => absurd h (Option.not_mem_none _)

set_option Elab.async false in
theorem idle_without_txn : GwState.idle = .awaiting ↔ (none : Option Txn).isSome = true := by decide +kernel

theorem leaves_ite {α : Type} {i : Instr} {s : State} {p : Prop} [Decidable p] {op r r' : State × α}
    (heq : op = if p then r else r') (h : p → Leaves i s r.1) (h' : ¬p → Leaves i s r'.1) : Leaves i s op.1 := by
  subst heq
  split
  · exact h ‹_›
  · exact h' ‹_›

/-- R190: LNKBUF is emptied or left alone. -/
theorem clearOnSend_fits {s : State} (h : s.lnkLen ≤ s.par.lnkCap) :
    (if s.par.lnkClearOnSend then [] else s.lnkBuf).length ≤ s.par.lnkCap := by
  split
  · exact Nat.zero_le _
  · exact h

/-! ## Each operation but GW.STEP and GW.POLL -/

theorem rtuBuildOp_leaves (s : State) (uid : Byte) (pdu : List Byte) :
    Leaves (.rtuBuild uid pdu) s (rtuBuildOp uid pdu s).1 :=
  leaves_ite (rtuBuildOp_eq uid pdu s) (fun _ => ⟨rfl, .refl s⟩) fun _ => ⟨rfl, .refl s⟩

theorem rtuParseOp_leaves (s : State) (frame : List Byte) : Leaves (.rtuParse frame) s (rtuParseOp frame s).1 :=
  leaves_ite rfl (fun _ => ⟨rfl, .refl s⟩) fun _ => leaves_ite rfl (fun _ => ⟨rfl, .refl s⟩) fun _ =>
    leaves_ite rfl (fun _ => ⟨rfl, .refl s⟩) fun _ => ⟨rfl, .refl s⟩

theorem evolves_link {s : State} {buf : Memory} {last : Millis} {env : Env}
    (hfit : s.lnkLen ≤ s.par.lnkCap → buf.length ≤ s.par.lnkCap) (hnow : s.env.NowMonotone → env.NowMonotone) :
    Evolves s { s with lnkBuf := buf, lnkLastRx := last, env := env } :=
  evolves_of hfit id id id id id id hnow (.refl _)

theorem lnkPollOp_leaves (s : State) :
    Leaves .lnkPoll s (lnkPollOp s).1 ∧ (lnkPollOp s).1.env = s.env.afterNow.afterSerRead := by
  refine (lnkPollOp_cases s).elim fun buf h => h.elim fun last h => ?_
  exact h.1 ▸ ⟨⟨rfl, evolves_link h.2.1 fun hnow => hnow.afterNow.afterSerRead⟩, rfl⟩

theorem lnkRxbyteOp_leaves (s : State) (b : Byte) : Leaves (.lnkRxbyte b) s (lnkRxbyteOp b s).1 :=
  leaves_ite (lnkAccept_eq s.env.now b s.afterNow)
    (fun _ => ⟨rfl, evolves_link (fun _ => Nat.zero_le _) fun hnow => hnow.afterNow⟩)
    fun hroom => ⟨rfl, evolves_link (fun hfit => List.length_append.trans_le (Nat.lt_of_le_of_ne hfit hroom))
      fun hnow => hnow.afterNow⟩

theorem lnkSendOp_leaves (s : State) (bytes : List Byte) : Leaves (.lnkSend bytes) s (lnkSendOp bytes s).1 :=
  leaves_ite (lnkSendOp_eq bytes s) (fun _ => ⟨rfl, .refl s⟩) fun h =>
    ⟨rfl, evolves_of clearOnSend_fits id id id id (fun _ => rfl) id id (.transmission _ (Nat.le_of_not_lt h))⟩

theorem evolves_tcpBuf {s : State} {buf : Memory} (hfit : s.tfaLen ≤ 260 → buf.length ≤ 260) :
    Evolves s { s with tcpBuf := buf } :=
  evolves_of id hfit id id id id id id (.refl _)

theorem tfaAppendOp_leaves (s : State) (chunk : List Byte) : Leaves (.tfaAppend chunk) s (tfaAppendOp chunk s).1 :=
  tfaAppendOp_eq chunk s ▸ ⟨rfl, evolves_tcpBuf fun h =>
    (congrArg (fun r : State × Answer Half => r.1.tcpBuf.length) (tfaAppendOp_eq chunk s)).symm.trans_le
      (tfaAppendOp_length chunk s h)⟩

theorem mbapBuildOp_leaves (s : State) (tid : Half) (uid : Byte) (l : Half) :
    Leaves (.mbapBuild tid uid l) s (mbapBuildOp tid uid l s).1 :=
  leaves_ite (mbapBuildOp_eq tid uid l s) (fun _ => ⟨rfl, .refl s⟩) fun _ => 
    ⟨rfl, evolves_of id id (fun _ => (by decide : 7 ≤ 260)) id id id id id (.refl _)⟩

theorem pduTcprespOp_leaves (s : State) (tid : Half) (uid : Byte) (pdu : List Byte) :
    Leaves (.pduTcpresp tid uid pdu) s (pduTcprespOp tid uid pdu s).1 :=
  leaves_ite (pduTcprespOp_eq tid uid pdu s) (fun _ => ⟨rfl, .refl s⟩) fun h =>
    ⟨rfl, evolves_of id id (fun _ => List.length_append.trans_le (Nat.add_le_add_left (Nat.le_of_not_lt h) 7)) id id id id id (.refl _)⟩

theorem evolves_config {s : State} {v w : Millis}
    (hlegal : s.ConfigLegal → ({ s with cfgSilenceMs := v, cfgRtuTimeoutMs := w } : State).ConfigLegal) :
    Evolves s { s with cfgSilenceMs := v, cfgRtuTimeoutMs := w } :=
  evolves_of id id id id id id hlegal id (.refl _)

theorem cfgSetOp_leaves (s : State) (idx : Byte) (value : Millis) : Leaves (.cfgSet idx value) s (cfgSetOp idx value s).1 := by
  have hfits {n : Nat} (h : ¬ cfgMax < n) : n < 2147483648 := Nat.lt_succ_of_le (Nat.le_of_not_lt h)
  exact leaves_ite rfl
    (fun _ => leaves_ite rfl (fun _ => ⟨rfl, .refl s⟩) fun h => ⟨rfl, evolves_config (And.imp_left fun _ => hfits h)⟩)
    fun _ => leaves_ite rfl
      (fun _ => leaves_ite rfl (fun _ => ⟨rfl, .refl s⟩) fun h => ⟨rfl, evolves_config (And.imp_right (And.imp_left fun _ =>
        ⟨Nat.pos_of_ne_zero fun h0 => h (.inl (BitVec.eq_of_toNat_eq h0)), hfits fun hv => h (.inr hv)⟩))⟩)
      fun _ => ⟨rfl, .refl s⟩

set_option Elab.async false in
theorem sysReset_leaves (s : State) : Leaves .sysReset s (sysResetState s) :=
  ⟨rfl, evolves_of (fun _ => Nat.zero_le _) (fun _ => Nat.zero_le _) (fun _ => Nat.zero_le _) (fun _ => not_txn)
    (fun _ => idle_without_txn) (fun _ => rfl)
    (fun hcfg => ⟨(by decide +kernel : (5 : Millis).toNat < 2147483648), hcfg.2.2, hcfg.2.2⟩) id (.refl _)⟩

end Sys2Proof.Machine
end

section
/-!
One step of the sequencer (R267 to R278): what every step keeps, how it leaves the sequencer, and its next state, whole, case by
case.
-/

namespace Sys2Proof.Machine

/-! ## What a step keeps -/

/-- What a step of the sequencer keeps. -/
def GwKeeps (s t : State) : Prop :=
  t.masked .gwStep = s.masked .gwStep ∧ t.gwPolling = s.gwPolling ∧ Evolves s t

theorem GwKeeps.trans {s t u : State} (h : GwKeeps s t) (h' : GwKeeps t u) : GwKeeps s u :=
  ⟨h'.1.trans h.1, h'.2.1.trans h.2.1, h.2.2.trans h'.2.2⟩

/-! ## How a step leaves the sequencer -/

/-- The answer of a step in its bytes (R117). -/
noncomputable def gwAnswer (a : Answer GwOutcome) : List Byte := a.bytes fun o => encB (GwOutcome.code o)

/-- A step that ends Idle neither forwarded nor waits; one that ends in an error, which is not PduTooLarge, ends Idle with
nothing in flight and TCPBUF empty. -/
def GwEnds (s : State) (r : State × Answer GwOutcome) : Prop :=
  (r.1.gwState = .idle → gwAnswer r.2 ≠ [0x00, 0x02] ∧ gwAnswer r.2 ≠ [0x00, 0x03]) ∧
    (SpecInv s → ∀ e, gwAnswer r.2 = [e] → e ≠ 0x05 ∧ r.1.gwState = .idle ∧ r.1.tcpBuf = [] ∧ r.1.txn = none)

theorem pair_ne_singleton (a b c : Byte) : [a, b] ≠ [c] := fun h => List.cons_ne_nil _ _ (List.cons.inj h).2

theorem gwEnds_ok {s t : State} {o : GwOutcome} (h : t.gwState = .idle → o.code ≠ 2 ∧ o.code ≠ 3) :
    GwEnds s (t, .ok o) :=
  ⟨fun hidle => (h hidle).imp (mt (congrArg (List.getD · 1 0))) (mt (congrArg (List.getD · 1 0))),
    fun _ _ he => absurd he (pair_ne_singleton _ _ _)⟩

theorem eq_pduTooLarge_of_code {e : ErrorKind} (h : e.code = 5) : e = .pduTooLarge := by
  induction e with
  | pduTooLarge => rfl
  | _ => exact absurd h (by decide)

theorem gwEnds_error {s t : State} {e : ErrorKind}
    (h : SpecInv s → e ≠ .pduTooLarge ∧ t.gwState = .idle ∧ t.tcpBuf = [] ∧ t.txn = none) : GwEnds s (t, .error e) :=
  ⟨fun _ => ⟨(pair_ne_singleton _ _ _).symm, (pair_ne_singleton _ _ _).symm⟩,
    fun hs _ he => (h hs).imp_left fun hne => (List.cons.inj he).1 ▸ mt eq_pduTooLarge_of_code hne⟩

/-- What a step does, with the answer it ends in. -/
def GwRuns (s : State) (r : State × Answer GwOutcome) : Prop := GwKeeps s r.1 ∧ GwEnds s r

theorem GwKeeps.runs {s t : State} {r : State × Answer GwOutcome} (h : GwKeeps s t) (h' : GwRuns t r) : GwRuns s r :=
  ⟨h.trans h'.1, h'.2.1, fun hs => h'.2.2 (h.2.2.1 hs)⟩

/-! ## The Idle step -/

theorem txn_of_idle {s : State} (h : SpecInv s) (hg : s.gwState = .idle) : s.txn = none := by
  obtain ⟨-, hiff, -⟩ := h
  exact Option.not_isSome_iff_eq_none.1 (mt hiff.2 (hg ▸ (by decide : GwState.idle ≠ .awaiting)))

/-- Forwarding (R272). -/
theorem gwForward_runs (conn : Conn) (tid : Half) (uid : Byte) {pdu : List Byte} (s : State) (h : pdu.length ≤ 253) :
    GwRuns s (gwForward conn tid uid pdu s) :=
  gwForward_eq conn tid uid pdu s h ▸ ⟨⟨rfl, rfl,
    evolves_of clearOnSend_fits id id (fun _ _ hx => Option.mem_some.1 hx ▸ Memory.wf_iff.2 h)
      (fun _ => iff_of_true rfl rfl) (fun _ => rfl) id (fun h => h.afterNow)
      (.transmission _ (List.length_append.trans_le (Nat.add_le_add_right (Nat.succ_le_succ h) 2)))⟩,
    gwEnds_ok GwState.noConfusion⟩

set_option Elab.async false in
theorem gwExamine_runs (conn : Conn) {s : State} (hg : s.gwState = .idle) : GwRuns s (gwExamine conn s) := by
  obtain h | ⟨e, h, hlarge⟩ | ⟨uid, pdu, hlen, h⟩ := gwExamine_cases conn s
  · exact h ▸ ⟨⟨rfl, rfl, .refl s⟩, gwEnds_ok fun _ => by decide +kernel⟩
  · exact h ▸ ⟨⟨rfl, rfl, evolves_tcpBuf fun _ => Nat.zero_le _⟩, gwEnds_error fun hs =>
      ⟨fun he => absurd (hlarge he) (Nat.not_lt.2 (Memory.wf_iff.1 hs.1.2.1)), hg, rfl, (txn_of_idle hs hg :)⟩⟩
  · exact h ▸ gwForward_runs conn _ uid s hlen

/-- R268. -/
theorem gwStepOp_noConnection {s : State} (hg : s.gwState = .idle) (hc : s.env.tcpAccept = none) :
    gwStepOp s = (s.afterTcpAccept, .ok .noConnection) := by
  rw [gwStepOp, hg]; simp only [gwIdleStep, hc]; rfl

theorem gwRead_fits {s : State} (h : s.tfaLen ≤ 260) :
    (s.tcpBuf ++ s.env.afterTcpAccept.tcpRead (260 - s.tfaLen)).length ≤ 260 :=
  List.length_append.trans_le ((Nat.add_le_add_left (Env.tcpRead_length _ _) _).trans_eq (Nat.add_sub_of_le h))

theorem gwIdleStep_runs {s : State} (hg : s.gwState = .idle) : GwRuns s (gwStepOp s) := by
  cases hc : s.env.tcpAccept with
  | none =>
    rw [gwStepOp_noConnection hg hc]
    exact ⟨⟨rfl, rfl, evolves_of id id id id id id id (fun h => h.afterTcpAccept) (.refl _)⟩, gwEnds_ok fun _ => by decide⟩
  | some conn =>
    rw [gwStepOp_idle s conn hg hc]
    refine GwKeeps.runs ?_ (gwExamine_runs conn hg)
    exact ⟨rfl, rfl, evolves_of id gwRead_fits id id id id id (fun h => h.afterTcpAccept.afterTcpRead) (.refl _)⟩

/-! ## The Awaiting step -/

/-- The end of a cycle (R275 to R277): TCPBUF emptied, nothing in flight and the sequencer Idle. -/
def GwCycleEnds (s t : State) : Prop := t.env = s.env ∧ t.gwState = .idle ∧ t.txn = none ∧ t.tcpBuf = []

theorem gwKeeps_gwEnd {s : State} {tx : Memory} {tr : List Event} (hsends : Sends s.trace tr)
    (htx : s.tcpTx.length ≤ 260 → tx.length ≤ 260) : GwKeeps s (gwEnd { s with tcpTx := tx, trace := tr }) :=
  ⟨rfl, rfl, evolves_of id (fun _ => Nat.zero_le _) htx (fun _ => not_txn) (fun _ => idle_without_txn) id id id hsends⟩

/-- What RTU.PARSE answers: no PDU that is too large, nor the error that says so (R162). -/
def Parsed (a : Answer (Byte × List Byte)) : Prop :=
  (∃ e, a = .error e ∧ e ≠ .pduTooLarge) ∨ ∃ uid pdu, a = .ok (uid, pdu) ∧ pdu.length ≤ 253

theorem parsed_error {e : ErrorKind} (h : e ≠ .pduTooLarge) : Parsed (.error e) := .inl ⟨e, rfl, h⟩

theorem pduStrip_parsed {body : List Byte} (h : body.length ≤ 254) : Parsed (pduStrip body) := by
  cases body with
  | nil => exact parsed_error (by decide)
  | cons uid pdu =>
    exact .inr ⟨uid, pdu, (pduStrip_cons uid pdu).trans (if_neg (Nat.not_lt.2 h)), Nat.le_of_succ_le_succ h⟩

theorem rtuParseOp_parsed (f : List Byte) (s : State) : Parsed (rtuParseOp f s).2 :=
  iteInduction (motive := fun r : State × Answer (Byte × List Byte) => Parsed r.2) (fun _ => parsed_error (by decide)) fun _ =>
    iteInduction (motive := fun r : State × Answer (Byte × List Byte) => Parsed r.2) (fun _ => parsed_error (by decide)) fun hlong =>
      iteInduction (motive := fun r : State × Answer (Byte × List Byte) => Parsed r.2) (fun _ => parsed_error (by decide)) fun _ =>
        pduStrip_parsed ((List.length_take_le ..).trans (Nat.sub_le_sub_right (Nat.le_of_not_lt hlong) 2))

/-- R275: the response goes back under the transaction's id, on its connection. -/
theorem gwReply_of_ok {f : List Byte} {s t : State} {uid : Byte} {pdu : List Byte} {tid : Half} {conn : Conn}
    (hparse : rtuParseOp f s = (t, .ok (uid, pdu))) (h : pdu.length ≤ 253) (htid : t.txnTid = tid) (hconn : t.txnConn = conn) :
    gwReply f s = (gwEnd { t with
      tcpTx := tcpFrame tid uid pdu, trace := t.trace ++ [.tcpSend conn (tcpFrame tid uid pdu)] }, .ok .responded) := by
  subst htid hconn
  rw [gwReply, hparse]
  dsimp only
  rw [pduTcprespOp_eq, if_neg (Nat.not_lt.2 h), mbapHeader_append_eq_tcpFrame]
  rfl

theorem gwReply_runs (f : List Byte) (s : State) :
    GwRuns s (gwReply f s) ∧ GwCycleEnds s (gwReply f s).1 := by
  obtain ⟨hmask, hevolves⟩ := rtuParseOp_leaves s f
  have hparsed := rtuParseOp_parsed f s
  generalize hr : rtuParseOp f s = r at hmask hevolves hparsed
  obtain ⟨t, a⟩ := r
  have ht : GwKeeps s t := ⟨(congrArg (State.masked .gwStep) hmask :), (congrArg State.gwPolling hmask :), hevolves⟩
  have henv : t.env = s.env := (congrArg State.env hmask :)
  obtain ⟨e, rfl, hne⟩ | ⟨uid, pdu, rfl, hlen⟩ := hparsed
  · rw [gwReply_of_error hr]
    exact ⟨ht.runs ⟨gwKeeps_gwEnd (.refl _) id, gwEnds_error fun _ => ⟨hne, rfl, rfl, rfl⟩⟩, henv, rfl, rfl, rfl⟩
  · rw [gwReply_of_ok hr hlen rfl rfl]
    exact ⟨ht.runs ⟨gwKeeps_gwEnd (.response _ _ (legalTcpFrame_tcpFrame _ uid hlen)) fun _ => tcpFrame_fits _ uid hlen,
      gwEnds_ok fun _ => by decide⟩, henv, rfl, rfl, rfl⟩

/-- How a step that awaits leaves the sequencer: the cycle over, or as it was before the deadline. -/
def GwAwaitEnds (s t : State) : Prop :=
  t.env = s.env.afterNow.afterSerRead ∧ ((t.gwState = .idle ∧ t.txn = none ∧ t.tcpBuf = []) ∨
    (t.gwState = .awaiting ∧ t.txn = s.txn ∧ ∀ x, s.txn = some x → reached s.env.now x.deadline = false))

theorem txnDeadline_eq {s : State} {x : Txn} (h : s.txn = some x) : s.txnDeadline = x.deadline := by
  rw [State.txnDeadline, h]

/-- R274, R277: nothing is delivered. -/
theorem gwStepOp_undelivered {s s1 : State} (hawait : s.gwState = .awaiting) (hpoll : lnkPollOp s = (s1, none)) :
    gwStepOp s =
      if reached s.env.now s1.txnDeadline then (gwEnd s1, .error .rtuTimeout) else (s1, .ok .waiting) := by
  rw [gwStepOp_awaiting s hawait, gwAwaitStep, hpoll]
  rfl

theorem gwStepOp_awaiting_runs {s : State} (hg : s.gwState = .awaiting) :
    GwRuns s (gwStepOp s) ∧ GwAwaitEnds s (gwStepOp s).1 := by
  obtain ⟨⟨hmask, hevolves⟩, henv⟩ := lnkPollOp_leaves s
  generalize hr : lnkPollOp s = r at henv hmask hevolves
  obtain ⟨s1, o⟩ := r
  have hpoll : GwKeeps s s1 := ⟨(congrArg (State.masked .gwStep) hmask :), (congrArg State.gwPolling hmask :), hevolves⟩
  induction o with
  | none =>
    have hawait : s1.gwState = .awaiting := (congrArg State.gwState hmask :).trans hg
    have htxn : s1.txn = s.txn := (congrArg State.txn hmask :)
    rw [gwStepOp_undelivered hg hr]
    refine iteInduction (motive := fun r : State × Answer GwOutcome => GwRuns s r ∧ GwAwaitEnds s r.1) (fun _ => ?_) fun hd => ?_
    · exact ⟨hpoll.runs ⟨gwKeeps_gwEnd (.refl _) id, gwEnds_error fun _ => ⟨by decide, rfl, rfl, rfl⟩⟩,
        henv, .inl ⟨rfl, rfl, rfl⟩⟩
    · exact ⟨⟨hpoll, gwEnds_ok fun h => GwState.noConfusion (hawait.symm.trans h)⟩, henv, .inr ⟨hawait, htxn,
        fun x hx => Bool.eq_false_of_not_eq_true fun h => hd ((congrArg _ (txnDeadline_eq (htxn.trans hx))).trans h)⟩⟩
  | some f =>
    rw [gwStepOp_delivered hg hr]
    obtain ⟨hruns, henv', hends⟩ := gwReply_runs f s1
    exact ⟨hpoll.runs hruns, henv'.trans henv, .inl hends⟩

theorem gwStepOp_runs (s : State) : GwRuns s (gwStepOp s) := by
  cases hg : s.gwState with
  | idle => exact gwIdleStep_runs hg
  | awaiting => exact (gwStepOp_awaiting_runs hg).1

end Sys2Proof.Machine
end

section
/-!
GW.POLL (R280), every operation and every step of the machine: what `exec` and `step` do, and the statements about the whole
machine.
-/

namespace Sys2Proof.Machine

/-! ## GW.POLL -/

theorem gwLoop_of_idle {s : State} (n : Nat) (h : (gwStepOp s).1.gwState = .idle) :
    gwLoop (n + 1) s = ((gwStepOp s).1, some (gwStepOp s).2) := by
  rw [gwLoop, h]

theorem gwLoop_of_awaiting {s : State} (n : Nat) (h : (gwStepOp s).1.gwState = .awaiting) :
    gwLoop (n + 1) s = gwLoop n (gwStepOp s).1 := by
  rw [gwLoop, h]

/-- The sequencer awaits after each of the first n steps. -/
def AwaitsFor (n : Nat) (s : State) : Prop := ∀ k < n, (gwAfter (k + 1) s).gwState = .awaiting

theorem AwaitsFor.zero (s : State) : AwaitsFor 0 s := fun _ hk => absurd hk (Nat.not_lt_zero _)

theorem AwaitsFor.succ {n : Nat} {s : State} (h : (gwStepOp s).1.gwState = .awaiting) (hn : AwaitsFor n (gwStepOp s).1) :
    AwaitsFor (n + 1) s := by
  intro k hk
  cases k with
  | zero => exact h
  | succ k => exact hn k (Nat.lt_of_succ_lt_succ hk)

/-- The loop stops behind n + 1 steps: at the first that leaves the sequencer Idle, or, still awaiting, at the cut. -/
def StopsAfter (n : Nat) (s : State) (r : State × Option (Answer GwOutcome)) : Prop :=
  AwaitsFor n s ∧
    (((gwAfter (n + 1) s).gwState = .idle ∧ r = (gwAfter (n + 1) s, some (gwStepOp (gwAfter n s)).2)) ∨
     ((gwAfter (n + 1) s).gwState = .awaiting ∧ r = (gwAfter (n + 1) s, none)))

/-- The loop of GW.POLL is GW.STEP repeated (R280; log 10). -/
theorem gwLoop_stopsAfter (m : Nat) (s : State) : ∃ n, StopsAfter n s (gwLoop (m + 1) s) := by
  induction m generalizing s with
  | zero =>
    cases hg : (gwStepOp s).1.gwState with
    | idle => exact ⟨0, .zero s, .inl ⟨hg, gwLoop_of_idle 0 hg⟩⟩
    | awaiting => exact ⟨0, .zero s, .inr ⟨hg, gwLoop_of_awaiting 0 hg⟩⟩
  | succ m ih =>
    cases hg : (gwStepOp s).1.gwState with
    | idle => exact ⟨0, .zero s, .inl ⟨hg, gwLoop_of_idle (m + 1) hg⟩⟩
    | awaiting =>
      rw [gwLoop_of_awaiting (m + 1) hg]
      exact (ih (gwStepOp s).1).elim fun n hn => ⟨n + 1, hn.imp_left (.succ hg)⟩

theorem gwAfter_keeps (n : Nat) (s : State) : GwKeeps s (gwAfter n s) := by
  induction n generalizing s with
  | zero => exact ⟨rfl, rfl, .refl s⟩
  | succ n ih => exact (gwStepOp_runs s).1.trans (ih _)

/-- GW.POLL takes a step at least (R280). -/
theorem gwLoopBound_pos (s : State) : 0 < gwLoopBound s := Nat.le_max_left ..

/-- GW.POLL behind its loop: the loop's answer, or, without one, in progress (log 10). -/
noncomputable def afterLoop : State × Option (Answer GwOutcome) → State
  | (t, some a) => finish (fun o => encB (GwOutcome.code o)) (({ t with gwPolling := false } : State), a)
  | (t, none) => { t with gwPolling := true }

theorem gwPollRun_of_gwLoop {s : State} {r : State × Option (Answer GwOutcome)} (h : gwLoop (gwLoopBound s) s = r) :
    gwPollRun s = afterLoop r := congrArg afterLoop h

/-! ## Every operation -/

/-- One answer, a status of 0 to 7 with nothing behind it unless it is OK (R117, R320); or none, for a GW.POLL that goes on
waiting (R280; log 10). -/
def AnswersOnce (i : Instr) (s t : State) : Prop :=
  (∃ (status : Byte) (result : List Byte), t.resPort = s.resPort ++ [status :: result] ∧ status.toNat ≤ 7 ∧ (status ≠ 0 → result = [])) ∨
    (i = .gwPoll ∧ t.gwPolling = true ∧ t.gwState = .awaiting ∧ t.resPort = s.resPort)

/-- What exec does to the machine: the operation's writes and one answer. -/
def Runs (i : Instr) (s t : State) : Prop :=
  t.masked i = { s with resPort := t.resPort }.masked i ∧ Evolves s t ∧ AnswersOnce i s t ∧ (s.gwPolling = false → t.PollWaits)

theorem masked_answered {i : Instr} {s t : State} (h : t.masked i = s.masked i) (port : List (List Byte)) :
    { t with resPort := port }.masked i = { s with resPort := port }.masked i := by
  replace h := congrArg (fun u : State => { u with resPort := port }) h
  dsimp only [State.masked] at h ⊢
  exact h

/-- What holds of the state an operation is known to leave holds of the state it is said to leave. -/
theorem of_next {P : State → Prop} {o : Host.Outcome State Fault Refusal} {u t : State} (ho : o = .next u) (h : o = .next t)
    (hu : P u) : P t := Host.Outcome.next.inj (ho.symm.trans h) ▸ hu

theorem runs_finish {α : Type} {enc : α → List Byte} {i : Instr} {s t : State} {r : State × Answer α} (hl : Leaves i s r.1)
    (hpoll : s.gwPolling = false → r.1.gwPolling = false)
    (h : .next (finish enc r) = (.next t : Host.Outcome State Fault Refusal)) : Runs i s t := by
  obtain ⟨status, result, hbytes, hform⟩ := r.2.bytes_form enc
  exact of_next rfl h ⟨masked_answered hl.1 _, hl.2,
    .inl ⟨status, result, congrArg₂ (· ++ [·]) (congrArg State.resPort hl.1 :) hbytes, hform⟩,
    fun hp ht => Bool.noConfusion ((hpoll hp).symm.trans ht)⟩

/-- An operation not named for the sequencer leaves GW.POLL as it was. -/
theorem runs_quiet {α : Type} {enc : α → List Byte} {i : Instr} {s t : State} {r : State × Answer α}
    (hi : writesSequencer i = false) (hl : Leaves i s r.1)
    (h : .next (finish enc r) = (.next t : Host.Outcome State Fault Refusal)) : Runs i s t :=
  runs_finish hl ((eq_of_cond_eq (congrArg State.gwPolling hl.1) hi).trans) h

/-- The model's clause on GW.POLL (log 10) holds behind each, since only its own cut leaves it in progress. -/
theorem gwPollRun_runs (s : State) : Runs .gwPoll s (gwPollRun s) ∧ (gwPollRun s).PollWaits := by
  obtain ⟨n, -, h⟩ := gwLoop_stopsAfter (gwLoopBound s - 1) s
  rw [Nat.sub_add_cancel (gwLoopBound_pos s)] at h
  obtain ⟨hmask, -, hev⟩ := gwAfter_keeps (n + 1) s
  obtain ⟨-, hr⟩ | ⟨hawait, hr⟩ := h
  · rw [gwPollRun_of_gwLoop hr]
    exact ⟨runs_finish (i := .gwPoll) (r := ({ gwAfter (n + 1) s with gwPolling := false }, _)) ⟨hmask, hev⟩ (fun _ => rfl) rfl,
      Bool.noConfusion⟩
  · rw [gwPollRun_of_gwLoop hr]
    exact ⟨⟨masked_answered (i := .gwPoll) hmask _, hev, .inr ⟨rfl, rfl, hawait, (congrArg State.resPort hmask :)⟩,
      fun _ _ => hawait⟩, fun _ => hawait⟩

theorem Leaves.refl (i : Instr) (s : State) : Leaves i s s := ⟨rfl, .refl s⟩

theorem exec_runs {i : Instr} {s t : State} (h : exec i s = .next t) : Runs i s t := by
  induction i with
  | crcInit | crcByte | crcCompute | crcVerify =>
    refine runs_quiet rfl ?_ h
    exact ⟨rfl, .refl s⟩
  | crcRead | tfaIscomplete | mbapParse | pduExtract | pduWrap | pduStrip =>
    refine runs_quiet rfl ?_ h
    exact .refl _ s
  | rtuBuild uid pdu => exact runs_quiet rfl (rtuBuildOp_leaves s uid pdu) h
  | rtuParse frame => exact runs_quiet rfl (rtuParseOp_leaves s frame) h
  | lnkPoll => exact runs_quiet (r := (lnkPollOp s).1.ret (lnkPollOp s).2) rfl (lnkPollOp_leaves s).1 h
  | lnkSend bytes => exact runs_quiet rfl (lnkSendOp_leaves s bytes) h
  | lnkRxbyte b => exact runs_quiet rfl (lnkRxbyteOp_leaves s b) h
  | tfaAppend chunk => exact runs_quiet rfl (tfaAppendOp_leaves s chunk) h
  | tfaReset =>
    refine runs_quiet rfl ?_ h
    exact ⟨rfl, evolves_tcpBuf fun _ => Nat.zero_le _⟩
  | mbapBuild tid uid l => exact runs_quiet rfl (mbapBuildOp_leaves s tid uid l) h
  | pduTcpresp tid uid pdu => exact runs_quiet rfl (pduTcprespOp_leaves s tid uid pdu) h
  | gwPoll => exact of_next rfl h (gwPollRun_runs s).1
  | gwStep =>
    obtain ⟨⟨hmask, hpoll, hev⟩, -⟩ := gwStepOp_runs s
    exact runs_finish ⟨hmask, hev⟩ hpoll.trans h
  | cfgSet idx value => exact runs_quiet rfl (cfgSetOp_leaves s idx value) h
  | sysReset => exact runs_finish (r := sysResetOp s) (sysReset_leaves s) (fun _ => rfl) h

/-! ## One step -/

/-- What a step keeps: what every operation keeps, and the model's clause on GW.POLL (log 10). -/
def StepKeeps (s t : State) : Prop := Evolves s t ∧ (s.PollWaits → t.PollWaits)

/-- A step is an operation with its command taken, a refusal, a GW.POLL that goes on, or nothing. -/
theorem step_runs {s t : State} (h : step s = .next t) : StepKeeps s t := by
  cases hp : s.gwPolling with
  | true =>
    exact of_next (P := StepKeeps s) (step_of_polling hp) h ⟨(gwPollRun_runs s).1.2.1, fun _ => (gwPollRun_runs s).2⟩
  | false =>
    cases hc : s.cmdPort with
    | nil =>
      exact of_next (P := StepKeeps s) (step_of_no_command hp hc) h ⟨.refl s, id⟩
    | cons command rest =>
      cases hd : decode command with
      | error e =>
        exact of_next (P := StepKeeps s) (step_of_decode_error hp hc hd) h ⟨.refl s, id⟩
      | ok i =>
        obtain ⟨-, hev, -, hwaits⟩ := exec_runs ((step_of_decode_ok hp hc hd).symm.trans h)
        exact ⟨hev, fun _ => hwaits hp⟩

/-! ## The statements -/

/-- Settles O54. The spec's clauses are kept by all an operation may leave, the model's own by whole steps, and the premise by
every read of the environment. -/
theorem stepKeepsInvariant : Obligations.StepKeepsInvariant := by
  unfold Obligations.StepKeepsInvariant
  refine ⟨?inv, ?sample, fun _ _ h he => (step_runs he).1.2.1 h⟩
  case inv =>
    rintro s t ⟨hfit, htxn, hdir, hcfg, hpoll⟩ he
    obtain ⟨hfit', htxn', hdir', hcfg'⟩ := (step_runs he).1.1 ⟨hfit, htxn, hdir, hcfg⟩
    exact ⟨hfit', htxn', hdir', hcfg', (step_runs he).2 hpoll⟩
  case sample => exact fun e last h hlast => ⟨h.now_reached hlast, e.afterNow_lastNow, h.afterNow⟩

/-- R13: the open parameter is in its range, whatever number below 2^31 - 1 its constant stands for. -/
theorem rtuTimeoutReset_legal :
    0 < Config.RTU_TIMEOUT_MS_RESET.toNat ∧ Config.RTU_TIMEOUT_MS_RESET.toNat < 2147483648 := by
  have hlt := Nat.succ_lt_succ Config.rtuTimeoutResetPred.isLt
  rw [Config.RTU_TIMEOUT_MS_RESET, BitVec.toNat_ofNat, Nat.mod_eq_of_lt (hlt.trans (by decide))]
  exact ⟨Nat.succ_pos _, hlt⟩

set_option Elab.async false in
/-- Settles O55. -/
theorem resetMeetsInvariant : Obligations.ResetMeetsInvariant := by
  unfold Obligations.ResetMeetsInvariant
  exact ⟨⟨⟨rfl, rfl, rfl, not_txn⟩, idle_without_txn, rfl,
    ⟨(by decide +kernel : (5 : Millis).toNat < 2147483648), rtuTimeoutReset_legal, rtuTimeoutReset_legal⟩, Bool.noConfusion⟩,
    List.isChain_nil⟩

/-- Settles O59. -/
theorem writesStayBracketed : Obligations.WritesStayBracketed := by
  unfold Obligations.WritesStayBracketed
  intro s t hs he
  obtain ⟨⟨-, -, evs, htr, hform, -⟩, -⟩ := step_runs he
  exact htr ▸ ⟨bracketed_append hs hform, List.prefix_append _ _⟩

/-- Settles O60. -/
theorem stepSendsBoundedWritesAndLegalResponses : Obligations.StepSendsBoundedWritesAndLegalResponses := by
  unfold Obligations.StepSendsBoundedWritesAndLegalResponses
  intro s t he
  obtain ⟨⟨-, -, evs, htr, -, hbound⟩, -⟩ := step_runs he
  refine ⟨evs, htr, fun ev hev => ⟨fun bytes h => ?_, fun conn f h => ?_⟩⟩ <;> exact (h ▸ hbound ev hev :)

/-- Settles O56. -/
theorem onlyNamedOperationsWrite : Obligations.OnlyNamedOperationsWrite := by
  unfold Obligations.OnlyNamedOperationsWrite
  intro i s t h
  obtain ⟨hmask, -⟩ := exec_runs h
  dsimp only [State.masked] at hmask
  exact ⟨eq_of_cond_eq (congrArg State.crc hmask), eq_of_cond_eq (congrArg State.lnkLastRx hmask),
    eq_of_cond_eq (congrArg State.lnkDir hmask),
    fun hi => ⟨eq_of_cond_eq (congrArg State.gwState hmask) hi, eq_of_cond_eq (congrArg State.txn hmask) hi,
      eq_of_cond_eq (congrArg State.gwPolling hmask) hi⟩,
    fun hi => ⟨eq_of_cond_eq (congrArg State.cfgSilenceMs hmask) hi, eq_of_cond_eq (congrArg State.cfgRtuTimeoutMs hmask) hi⟩,
    eq_of_cond_eq (congrArg State.env hmask), eq_of_cond_eq (congrArg State.trace hmask), (congrArg State.par hmask :),
    (congrArg State.cmdPort hmask :)⟩

/-- An append changes no byte below the length it appends at, and none above the bytes appended. -/
theorem Memory.byteAt_append {m bytes : Memory} {off : Nat} (h : off < m.length ∨ m.length + bytes.length ≤ off) :
    Memory.byteAt (m ++ bytes) off = m.byteAt off := by
  rw [Memory.byteAt, Memory.byteAt]
  obtain hlt | hge := h
  · rw [List.getElem?_append_left hlt]
  · rw [List.getElem?_eq_none (List.length_append.trans_le hge), List.getElem?_eq_none ((Nat.le_add_right _ _).trans hge)]

/-- Settles O57. The buffer that is not reached is the same as a whole; the appends are the last two clauses, and the one byte
LNK.RXBYTE may change stands at the length. -/
theorem onlyNamedOperationsReachBuffers : Obligations.OnlyNamedOperationsReachBuffers := by
  unfold Obligations.OnlyNamedOperationsReachBuffers
  refine ⟨fun i s t h => ?reached, fun bytes s t hclear h off => ?send, fun chunk s t h off hoff => ?append,
    fun b s t hroom h off hoff => ?rxbyte⟩
  case reached =>
    obtain ⟨hmask, -⟩ := exec_runs h
    exact ⟨fun hi off => congrArg (Memory.byteAt · off) (eq_of_cond_eq (congrArg State.lnkBuf hmask) hi),
      fun hi off => congrArg (Memory.byteAt · off) (eq_of_cond_eq (congrArg State.tcpBuf hmask) hi),
      fun hi off => congrArg (Memory.byteAt · off) (eq_of_cond_eq (congrArg State.tcpTx hmask) hi)⟩
  case send =>
    have hbuf : (lnkSendOp bytes s).1.lnkBuf = s.lnkBuf :=
      (congrArg (·.1.lnkBuf) (lnkSendOp_eq bytes s)).trans
        (iteInduction (motive := fun r : State × Answer Unit => r.1.lnkBuf = s.lnkBuf) (fun _ => rfl)
          fun _ => if_neg (hclear ▸ Bool.false_ne_true))
    exact of_next (P := fun t => t.lnkBuf.byteAt off = s.lnkBuf.byteAt off) rfl h (congrArg (Memory.byteAt · off) hbuf)
  case append =>
    exact of_next (P := fun t => t.tcpBuf.byteAt off = s.tcpBuf.byteAt off) (exec_tfaAppend_next s chunk) h
      (Memory.byteAt_append (.inl hoff))
  case rxbyte =>
    exact of_next (P := fun t => t.lnkBuf.byteAt off = s.lnkBuf.byteAt off)
      ((exec_lnkRxbyte_next b s).trans (if_neg hroom)) h
      (Memory.byteAt_append ((Nat.lt_or_gt_of_ne hoff).imp_right Nat.succ_le_of_lt))

/-- Settles O58. -/
theorem everyOperationAnswersOnce : Obligations.EveryOperationAnswersOnce := by
  unfold Obligations.EveryOperationAnswersOnce
  exact fun i s => (exec_next i s).imp fun t h => ⟨h, (exec_runs h).2.2.1⟩

end Sys2Proof.Machine
end

section
/-!
The CRC as an algebra (R141, R150, R151): the bit step by its bits, that neither a register nor a byte is lost in a step, and
that a byte step shifts out a low byte that is its own; then the operations fed one after the other (R126).
-/

namespace Sys2Proof.Machine

/-! ## The bit step -/

/-- R141: each bit is the one above it, with the polynomial's where a 1 was shifted out. -/
theorem crcBit_getLsbD (c : Half) (i : Nat) :
    (crcBit c).getLsbD i = (c.getLsbD (i + 1) ^^ (c.getLsbD 0 && (0xA001#16).getLsbD i)) := by
  have hshift : (c >>> 1).getLsbD i = c.getLsbD (i + 1) :=
    (BitVec.getLsbD_ushiftRight ..).trans (congrArg c.getLsbD (Nat.add_comm 1 i))
  cases h : c.getLsbD 0 with
  | true =>
    exact (congrArg (BitVec.getLsbD · i) (if_pos h)).trans (BitVec.getLsbD_xor.trans (congrArg (· ^^ _) hshift))
  | false =>
    exact (congrArg (BitVec.getLsbD · i) (if_neg (Bool.eq_false_iff.1 h))).trans (hshift.trans (Bool.xor_false _).symm)

/-- R141: bit 15 of the polynomial is set, so the bit shifted out comes back there. -/
theorem crcBit_getLsbD_last (c : Half) : (crcBit c).getLsbD 15 = c.getLsbD 0 := by
  have hpoly : (0xA001#16).getLsbD 15 = true := by decide
  exact (crcBit_getLsbD c 15).trans ((congrArg₂ (fun x y => x ^^ (c.getLsbD 0 && y)) (BitVec.getLsbD_of_ge c 16 (Nat.le_refl 16))
    hpoly).trans ((Bool.false_xor _).trans (Bool.and_true _)))

/-- R141: no bit of the register is lost. -/
theorem crcBit_injective : Function.Injective crcBit := by
  intro c d h
  have hbit (i : Nat) := congrArg (BitVec.getLsbD · i) h
  have hzero : c.getLsbD 0 = d.getLsbD 0 := (crcBit_getLsbD_last c).symm.trans ((hbit 15).trans (crcBit_getLsbD_last d))
  apply BitVec.eq_of_getLsbD_eq
  rintro (_ | i) -
  · exact hzero
  · exact Bool.xor_left_inj.1 ((hzero ▸ crcBit_getLsbD c i).symm.trans ((hbit i).trans (crcBit_getLsbD d i)))

/-- R141: zeros shifted out leave a plain shift. -/
theorem crcBit_iterate {c : Half} {n : Nat} (h : ∀ k < n, c.getLsbD k = false) : crcBit^[n] c = c >>> n := by
  induction n with
  | zero => exact (BitVec.ushiftRight_zero c).symm
  | succ n ih =>
    have hzero : (c >>> n).getLsbD 0 = false := (BitVec.getLsbD_ushiftRight ..).trans (h n (Nat.lt_succ_self n))
    exact (Function.iterate_succ_apply' ..).trans ((congrArg crcBit (ih fun k hk => h k (Nat.lt_succ_of_lt hk))).trans
      ((if_neg (Bool.eq_false_iff.1 hzero)).trans (BitVec.shiftRight_add c n 1).symm))

/-! ## The byte step -/

/-- R141: the byte step is the XOR into the low half and eight bit steps. -/
theorem crcStep_eq_iterate (c : Half) (b : Byte) : crcStep c b = crcBit^[8] (c ^^^ BitVec.setWidth 16 b) := rfl

theorem crcStep_register_injective (b : Byte) : Function.Injective fun c => crcStep c b := by
  intro c d h
  exact (BitVec.xor_left_inj _).mp (crcBit_injective.iterate 8 h)

theorem crcStep_byte_injective (c : Half) : Function.Injective (crcStep c) := by
  intro a b h
  have hwide := (BitVec.xor_right_inj _).mp (crcBit_injective.iterate 8 h)
  simpa using congrArg (BitVec.setWidth 8) hwide

theorem setWidth_eq_half (b : Byte) : BitVec.setWidth 16 b = half 0#8 b := BitVec.setWidth_eq_append (by decide)

/-- R151: a byte that is the register's own low half shifts out as zeros, and the high half comes down. -/
theorem crcStep_lo8 (c : Half) : crcStep c (lo8 c) = half 0#8 (hi8 c) := by
  have hcleared : c ^^^ BitVec.setWidth 16 (lo8 c) = half (hi8 c) 0#8 :=
    (congrArg₂ (· ^^^ ·) (half_hi8_lo8 c).symm (setWidth_eq_half (lo8 c))).trans
      (BitVec.xor_append.trans (congrArg₂ half BitVec.xor_zero BitVec.xor_self))
  have hshift : half (hi8 c) 0#8 >>> 8 = half 0#8 (hi8 c) :=
    (BitVec.ushiftRight_eq_extractLsb'_of_lt (by decide)).trans (congrArg (half 0#8) (hi8_half ..))
  exact (congrArg crcBit^[8] hcleared).trans ((crcBit_iterate fun k hk =>
    BitVec.getLsbD_append.trans ((if_pos hk).trans BitVec.getLsbD_zero)).trans hshift)

/-- R151: fed its own two bytes, low byte first, the register comes to zero. -/
theorem crcStep_own_bytes (c : Half) : crcStep (crcStep c (lo8 c)) (hi8 c) = 0 := by
  have hcleared : half 0#8 (hi8 c) ^^^ BitVec.setWidth 16 (hi8 c) = 0 :=
    (congrArg (_ ^^^ ·) (setWidth_eq_half (hi8 c))).trans BitVec.xor_self
  exact (congrArg (crcStep · (hi8 c)) (crcStep_lo8 c)).trans (congrArg crcBit^[8] hcleared)

/-! ## The checksum -/

/-- R142: the checksum of a string by one of its bytes. -/
theorem crc16_append_cons (p r : List Byte) (b : Byte) :
    crc16 (p ++ b :: r) = r.foldl crcStep (crcStep (crc16 p) b) := List.foldl_append

/-- R150: registers that differ stay different whatever bytes they are fed. -/
theorem foldl_crcStep_injective (r : List Byte) : Function.Injective fun c => r.foldl crcStep c := by
  induction r with
  | nil => exact Function.injective_id
  | cons b r ih => exact ih.comp (crcStep_register_injective b)

/-- R150: the checksum tells strings apart that differ in one byte. -/
theorem crc16_set_ne {bytes : List Byte} {i : Nat} {b : Byte} (hi : i < bytes.length) (hb : b ≠ bytes[i]) :
    crc16 (bytes.set i b) ≠ crc16 bytes := by
  have hset (a : Byte) := (congrArg crc16 (List.set_eq_take_append_cons_drop.trans (if_pos hi))).trans
    (crc16_append_cons (bytes.take i) (bytes.drop (i + 1)) a)
  have hself := (congrArg crc16 (List.set_getElem_self hi)).symm.trans (hset bytes[i])
  exact fun h => hb (crcStep_byte_injective _ (foldl_crcStep_injective _ ((hset b).symm.trans (h.trans hself))))

/-- A bit flipped is a word changed. -/
theorem xor_one_shiftLeft_ne {w k : Nat} (x : BitVec w) (hk : k < w) : x ^^^ (1#w <<< k) ≠ x := by
  intro h
  have hzero : BitVec.twoPow w k = 0#w := (BitVec.xor_right_inj x).1 (h.trans BitVec.xor_zero.symm)
  exact (Nat.two_pow_pos k).ne'
    ((BitVec.toNat_twoPow_of_lt hk).symm.trans ((congrArg BitVec.toNat hzero).trans BitVec.toNat_zero))

theorem crc16_flipBit_ne {bytes : List Byte} {i k : Nat} (hi : i < bytes.length) (hk : k < 8) :
    crc16 (flipBit bytes i k) ≠ crc16 bytes := by
  refine crc16_set_ne hi ?_
  rw [List.getD_eq_getElem _ _ hi]
  exact xor_one_shiftLeft_ne _ hk

/-! ## CRC.BYTE one after the other (R126) -/

/-- The state with the register fed and the answers left. -/
noncomputable def State.fed (s : State) (crc : Half) (port : List (List Byte)) : State := { s with crc := crc, resPort := port }

/-- Each CRC.BYTE feeds the register one byte and leaves one OK. -/
theorem execAll_crcByte (bytes : List Byte) (s : State) : execAll (bytes.map .crcByte) s =
    .next (s.fed (bytes.foldl crcStep s.crc) (s.resPort ++ List.replicate bytes.length [0x00])) := by
  induction bytes generalizing s with
  | nil => exact congrArg (fun port => Host.Outcome.next (s.fed s.crc port)) (List.append_nil _).symm
  | cons b r ih => exact (ih _).trans (congrArg (fun port => Host.Outcome.next (s.fed _ port)) (List.append_assoc ..))

/-! ## The statements -/

set_option Elab.async false in
/-- Settles O10. The bit step is said bit by bit by two equations; the byte step is the iterate by definition. -/
theorem crcBitAndByteStep : Obligations.CrcBitAndByteStep := by
  unfold Obligations.CrcBitAndByteStep
  refine ⟨fun c => ⟨crcBit_getLsbD_last c, fun i _ => crcBit_getLsbD c i⟩, crcStep_eq_iterate, ?vector⟩
  case vector => decide +kernel

set_option maxRecDepth 8000 in
/-- Settles O12. The values are those of the spec, computed. -/
theorem crcWorkedValues : Obligations.CrcWorkedValues := by
  unfold Obligations.CrcWorkedValues
  exact ⟨rfl, rfl, rfl, rfl, rfl, rfl, rfl, rfl, rfl, rfl, rfl, rfl, rfl⟩

/-- Settles O18. Both ways end in the same state but for the answers. -/
theorem crcStreamEqualsCompute : Obligations.CrcStreamEqualsCompute := by
  unfold Obligations.CrcStreamEqualsCompute
  intro bytes s
  have hstream := (execAll_crcByte bytes (s.fed 0xFFFF (s.resPort ++ [[0x00]]))).trans
    (congrArg (fun port => Host.Outcome.next (s.fed (crc16 bytes) port)) (List.append_assoc ..))
  exact ⟨hstream, exists₂_intro _ _ ⟨exec_crcCompute_next s bytes, hstream, rfl, rfl⟩⟩

/-- Settles O19. A flipped bit changes one byte of the string, or the checksum itself. -/
theorem crcDetectsSingleBitFlips : Obligations.CrcDetectsSingleBitFlips := by
  unfold Obligations.CrcDetectsSingleBitFlips
  exact fun bytes s => ⟨⟨_, exec_crcVerify_next .., congrArg (fun b => s.resPort ++ [[0x00, b]]) (if_pos rfl)⟩,
    fun i k hi hk => ⟨_, exec_crcVerify_next .., congrArg (fun b => s.resPort ++ [[0x00, b]]) (if_neg (crc16_flipBit_ne hi hk))⟩,
    fun k hk => ⟨_, exec_crcVerify_next .., congrArg (fun b => s.resPort ++ [[0x00, b]]) (if_neg (xor_one_shiftLeft_ne _ hk).symm)⟩⟩

/-- Settles O20. -/
theorem crcResidueIsZero : Obligations.CrcResidueIsZero := by
  unfold Obligations.CrcResidueIsZero
  intro bytes
  rw [crc16_append_cons]
  exact crcStep_own_bytes _

end Sys2Proof.Machine
end

section
/-!
The codecs undo one another (R161, R162, R212, R217, R231 to R233, R255).
-/

namespace Sys2Proof.Machine

/-! ## The TCP frame -/

/-- R233: the header's fields are what it was built of, with anything behind it. -/
theorem mbapParse_mbapHeader (tid : Half) (uid : Byte) {l : Half} (h : l.toNat ≤ 253) (rest : List Byte) :
    mbapParse (mbapHeader tid uid l ++ rest) = .ok (tid, uid, l) := by
  have hfield : half (hi8 (l + 1)) (lo8 (l + 1)) = l + 1 := half_hi8_lo8 (l + 1)
  have hnonzero : l + 1 ≠ 0 := fun h0 =>
    absurd (eq_neg_of_add_eq_zero_left h0 ▸ h) (by decide : ¬(-1 : Half).toNat ≤ 253)
  calc mbapParse (mbapHeader tid uid l ++ rest)
      = .ok (half (hi8 tid) (lo8 tid), uid, half (hi8 (l + 1)) (lo8 (l + 1)) - 1) :=
        (if_neg (Nat.not_lt.2 (Nat.le_add_left 7 _))).trans
          ((if_neg (not_not.2 (half_eq_zero_iff.2 ⟨rfl, rfl⟩))).trans (if_neg (hfield.trans_ne hnonzero)))
    _ = .ok (tid, uid, l) := by rw [hfield, half_hi8_lo8, BitVec.add_sub_cancel]

/-- R100: a frame is its header and its PDU, with anything behind it. -/
theorem tcpFrame_append (tid : Half) (uid : Byte) (pdu trailing : List Byte) :
    tcpFrame tid uid pdu ++ trailing = mbapHeader tid uid (BitVec.ofNat 16 pdu.length) ++ (pdu ++ trailing) :=
  (congrArg (· ++ trailing) (mbapHeader_append_eq_tcpFrame tid uid pdu).symm).trans (List.append_assoc ..)

theorem length_toNat {pdu : List Byte} (h : pdu.length ≤ 253) : (BitVec.ofNat 16 pdu.length).toNat = pdu.length :=
  Nat.mod_eq_of_lt (Nat.lt_of_le_of_lt h (by decide : 253 < 2 ^ 16))

theorem mbapParse_tcpFrame (tid : Half) (uid : Byte) {pdu : List Byte} (trailing : List Byte) (h : pdu.length ≤ 253) :
    mbapParse (tcpFrame tid uid pdu ++ trailing) = .ok (tid, uid, BitVec.ofNat 16 pdu.length) :=
  (congrArg mbapParse (tcpFrame_append ..)).trans (mbapParse_mbapHeader tid uid ((length_toNat h).trans_le h) _)

/-- R255: the PDU of a frame, with anything behind it. -/
theorem pduExtract_tcpFrame (tid : Half) (uid : Byte) {pdu : List Byte} (trailing : List Byte) (h : pdu.length ≤ 253) :
    pduExtract (tcpFrame tid uid pdu ++ trailing) (BitVec.ofNat 16 pdu.length) = .ok pdu := by
  have hlong : 7 + pdu.length ≤ (tcpFrame tid uid pdu ++ trailing).length :=
    ((Nat.add_comm ..).trans (tcpFrame_length tid uid pdu).symm).trans_le (List.prefix_append ..).length_le
  have hslice : slice (tcpFrame tid uid pdu ++ trailing) 7 (7 + pdu.length) = pdu :=
    (congrArg (fun n => (pdu ++ trailing).take n) (Nat.add_sub_cancel_left ..)).trans List.take_left
  rw [pduExtract, length_toNat h]
  exact (if_neg (Nat.not_lt.2 h)).trans ((if_neg (Nat.not_lt.2 hlong)).trans (congrArg Answer.ok hslice))

/-- R212: a string with the length field of a frame is complete when it has the frame's bytes. -/
theorem frameComplete_iff_of_field {m : Memory} {n k : Nat} (hlen : m.length = n)
    (hfield : 7 ≤ n → (be16 m 4).toNat = k + 1) : frameComplete m = true ↔ 6 + (k + 1) ≤ n := by
  subst hlen
  exact frameComplete_iff.trans ((and_congr_right fun h7 => iff_of_eq (congrArg (6 + · ≤ m.length) (hfield h7))).trans
    (and_iff_right_of_imp (Nat.le_trans (Nat.add_le_add_left (Nat.le_add_left 1 k) 6))))

/-! ## The RTU frame -/

/-- R162: past both length checks the checksum found is the one computed. -/
theorem rtuParseOp_of_crc {f body : List Byte} (s : State) (hmin : 4 ≤ f.length) (hmax : f.length ≤ 256)
    (hbody : slice f 0 (f.length - 2) = body) (hcrc : le16 f (f.length - 2) = crc16 body) :
    rtuParseOp f s = ({ s with crc := crc16 body }, pduStrip body) := by
  subst hbody
  exact (if_neg (Nat.not_lt.2 hmin)).trans ((if_neg (Nat.not_lt.2 hmax)).trans (if_neg (not_not.2 hcrc.symm)))

/-- R163. -/
theorem rtuParseOp_rtuFrame (uid : Byte) {pdu : List Byte} (s : State) (h1 : 1 ≤ pdu.length) (h : pdu.length ≤ 253) :
    rtuParseOp (rtuFrame uid pdu) s = ({ s with crc := crc16 (uid :: pdu) }, .ok (uid, pdu)) := by
  have hlen : (rtuFrame uid pdu).length = pdu.length + 3 := rtuFrame_length uid pdu
  have hcut : (rtuFrame uid pdu).length - 2 = (uid :: pdu).length := congrArg (· - 2) hlen
  have hbyte (k : Nat) : (rtuFrame uid pdu).getD ((uid :: pdu).length + k) 0 =
      (leBytes (crc16 (uid :: pdu))).getD k 0 :=
    (List.getD_append_right _ _ _ _ (Nat.le_add_right ..)).trans
      (congrArg (List.getD _ · 0) (Nat.add_sub_cancel_left ..))
  have hparse := rtuParseOp_of_crc s ((Nat.add_le_add_right h1 3).trans_eq hlen.symm)
    (hlen.trans_le (Nat.add_le_add_right h 3)) ((congrArg (slice _ 0) hcut).trans List.take_left)
    ((congrArg (le16 _) hcut).trans ((congrArg₂ half (hbyte 1) (hbyte 0)).trans (half_hi8_lo8 _)))
  exact hparse.trans (congrArg (Prod.mk _) ((pduStrip_cons uid pdu).trans (if_neg (Nat.not_lt.2 (Nat.succ_le_succ h)))))

/-! ## The statements -/

/-- Each of two operations answers, the second on the bytes the first one answered. -/
theorem exists_roundTrip {i : Instr} {j : List Byte → Instr} {f y : List Byte} {s t u : State}
    (hi : exec i s = .next t) (hf : t.resPort = s.resPort ++ [0x00 :: encS f]) (hj : exec (j f) t = .next u)
    (hy : u.resPort = t.resPort ++ [y]) :
    ∃ f t u, exec i s = .next t ∧ t.resPort = s.resPort ++ [0x00 :: encS f] ∧ exec (j f) t = .next u ∧
      u.resPort = t.resPort ++ [y] :=
  ⟨f, t, u, hi, hf, hj, hy⟩

/-- Settles O34. -/
theorem mbapRoundTrip : Obligations.MbapRoundTrip := by
  unfold Obligations.MbapRoundTrip
  exact fun tid uid l s h => exists_roundTrip rfl
    (congrArg (fun r => (finish encS r).resPort) ((mbapBuildOp_eq tid uid l s).trans (if_neg (Nat.not_lt.2 h)))) rfl
    (congrArg (fun a : Answer _ => _ ++ [a.bytes encHBH]) (mbapParse_mbapHeader tid uid h []))

/-- Settles O39. -/
theorem pduCompositionLaws : Obligations.PduCompositionLaws := by
  unfold Obligations.PduCompositionLaws
  rintro tid uid pdu trailing s l h rfl
  exact ⟨congrArg (fun a => Host.Outcome.next (finish encHBH (s, a))) (mbapParse_tcpFrame tid uid trailing h),
    congrArg (fun a => Host.Outcome.next (finish encS (s, a))) (pduExtract_tcpFrame tid uid trailing h),
    _, (exec_pduWrap_next ..).trans (if_neg (Nat.not_lt.2 h)), rfl,
    congrArg (fun a => Host.Outcome.next (finish encBS (s, a)))
      ((pduStrip_cons uid pdu).trans (if_neg (Nat.not_lt.2 (Nat.succ_le_succ h))))⟩

set_option Elab.async false in
/-- Settles O31. -/
theorem tfaCompletenessByCount : Obligations.TfaCompletenessByCount := by
  unfold Obligations.TfaCompletenessByCount
  refine ⟨fun tid uid pdu trailing n h hn => frameComplete_iff_of_field (List.length_take_of_le hn) ?cut, ?full⟩
  case cut =>
    intro h7
    obtain ⟨k, rfl⟩ := Nat.exists_eq_add_of_le' h7
    exact lengthField_tcpFrame tid uid trailing h
  case full =>
    intro m hm
    rw [tfaOverflow_iff, ← Bool.not_eq_true, frameComplete_iff, hm, and_iff_right rfl,
      and_iff_right (by decide +kernel : 7 ≤ 260), not_le]
    exact Nat.add_le_add_iff_left (n := 6) (m := 255)

/-- Settles O23. -/
theorem rtuRoundTrip : Obligations.RtuRoundTrip := by
  unfold Obligations.RtuRoundTrip
  intro uid pdu s h
  refine exists_roundTrip rfl (congrArg (fun r => (finish encS r).resPort) ((rtuBuildOp_eq uid pdu s).trans (if_neg (Nat.not_lt.2 h)))) rfl ?_
  cases pdu with
  | nil => exact congrArg (fun r => (finish encBS r).resPort) (rtuParseOp_short (f := rtuFrame uid []) _ (Nat.lt_succ_self 3))
  | cons b r => exact congrArg (fun r => (finish encBS r).resPort) (rtuParseOp_rtuFrame uid (pdu := b :: r) _ (Nat.le_add_left 1 r.length) h)

end Sys2Proof.Machine
end

section
/-!
The next state, whole, of each end of GW.STEP (R268 to R277), and what GW.POLL makes of it (R280).
-/

namespace Sys2Proof.Machine

/-! ## The Idle step -/

/-- The answer of a step stands behind the state it leaves. -/
theorem exec_gwStep_of_eq {s : State} {r : State × Answer GwOutcome} (h : gwStepOp s = r) :
    exec .gwStep s = .next (finish (fun o => encB (GwOutcome.code o)) r) := h ▸ exec_gwStep s

/-- R268: the bytes read stand behind those kept. -/
theorem gwStepOp_of_read {s : State} {conn : Conn} {buf : Memory} (hg : s.gwState = .idle) (hc : s.env.tcpAccept = some conn)
    (hbuf : buf = s.tcpBuf ++ s.env.afterTcpAccept.tcpRead (260 - s.tfaLen)) :
    gwStepOp s = gwExamine conn { s with tcpBuf := buf, env := s.env.afterTcpAccept.afterTcpRead } :=
  hbuf ▸ gwStepOp_idle s conn hg hc

/-- R269. -/
theorem gwExamine_incomplete (conn : Conn) {s : State} (h : ¬frameComplete s.tcpBuf = true) :
    gwExamine conn s = if s.tfaLen = 260 then (tfaClear s, .error .frameOverflow) else (s, .ok .incomplete) := if_neg h

/-- R270: the header is refused. -/
theorem gwExamine_of_error (conn : Conn) {s : State} {e : ErrorKind} (h : frameComplete s.tcpBuf = true)
    (hparse : mbapParse s.tcpBuf = .error e) : gwExamine conn s = (tfaClear s, .error e) := by
  rw [gwExamine, if_pos h, gwRequest, State.tfaLen, Memory.read_all, hparse]
  rfl

/-- R272: a request whose PDU is cut out is forwarded. -/
theorem gwExamine_of_ok (conn : Conn) {s : State} {tid : Half} {uid : Byte} {l : Half} {pdu : List Byte}
    (h : frameComplete s.tcpBuf = true) (hparse : mbapParse s.tcpBuf = .ok (tid, uid, l)) (hl : l.toNat ≤ 253)
    (hpdu : pduExtract s.tcpBuf l = .ok pdu) : gwExamine conn s = gwForward conn tid uid pdu s := by
  rw [gwExamine, if_pos h, gwRequest, State.tfaLen, Memory.read_all, hparse]
  dsimp only
  rw [if_neg (c := Config.PDU_MAX < _) (Nat.not_lt.2 hl), hpdu]

/-- Settles O40. -/
theorem gwStepNoConnection : Obligations.GwStepNoConnection := by
  unfold Obligations.GwStepNoConnection
  exact ⟨rfl, fun s hg hc => exec_gwStep_of_eq (gwStepOp_noConnection hg hc)⟩

/-- Settles O41. -/
theorem gwStepIncompleteOrOverflow : Obligations.GwStepIncompleteOrOverflow := by
  unfold Obligations.GwStepIncompleteOrOverflow
  intro s conn buf hg hc hbuf hshort
  refine next_finish_ite ((gwStepOp_of_read hg hc hbuf).trans (gwExamine_incomplete conn fun hcomplete => ?_))
  obtain ⟨h7, hfield⟩ := frameComplete_iff.1 hcomplete
  exact hshort.elim (Nat.not_lt.2 h7) (Nat.not_lt.2 hfield)

/-- Settles O42. -/
theorem gwStepInvalidHeader : Obligations.GwStepInvalidHeader := by
  unfold Obligations.GwStepInvalidHeader
  exact fun s conn buf hg hc hbuf h7 hfield hbad => exec_gwStep_of_eq ((gwStepOp_of_read hg hc hbuf).trans
    (gwExamine_of_error conn (frameComplete_iff.2 ⟨h7, hfield⟩) ((if_neg (Nat.not_lt.2 h7)).trans
      (ite_eq_left_iff.2 fun hproto => if_pos (hbad.resolve_left hproto)))))

/-- R271: a complete frame in TCPBUF has a PDU of at most 253 bytes, and it is there. -/
theorem pduExtract_of_fits {buf : List Byte} {l : Half} (hread : buf.length ≤ 260) (hlen : 6 + (l.toNat + 1) ≤ buf.length) :
    l.toNat ≤ 253 ∧ pduExtract buf l = .ok ((buf.drop 7).take l.toNat) := by
  have hsmall : l.toNat + 1 ≤ 254 := Nat.le_of_add_le_add_left (hlen.trans hread)
  exact ⟨Nat.le_of_succ_le_succ hsmall, (pduExtract_eq buf l).trans ((if_neg (Nat.not_lt.2 (Nat.le_of_succ_le_succ hsmall))).trans
    (if_neg (Nat.not_lt.2 ((Nat.succ_add 6 _).trans_le hlen))))⟩

/-- Settles O43. -/
theorem gwStepForwards : Obligations.GwStepForwards := by
  unfold Obligations.GwStepForwards
  intro s conn buf pdu uid hg hc hfit hbuf h7 hfield hproto hnonzero huid hpdu
  obtain ⟨hpred, hpos⟩ := pred_toNat hnonzero
  have hlen : 6 + ((be16 buf 4 - 1).toNat + 1) ≤ buf.length := by
    rw [hpred, Nat.sub_add_cancel hpos]
    exact hfield
  obtain ⟨hsmall, hextract⟩ := pduExtract_of_fits (hbuf ▸ gwRead_fits hfit) hlen
  rw [hpred, ← hpdu] at hextract
  have hparse : mbapParse buf = .ok (be16 buf 0, buf.getD 6 0, be16 buf 4 - 1) :=
    (if_neg (Nat.not_lt.2 h7)).trans ((if_neg (not_not.2 hproto)).trans (if_neg hnonzero))
  rw [← huid] at hparse
  have hfits : pdu.length ≤ 253 :=
    (congrArg List.length hpdu).trans_le ((List.length_take_le ..).trans (hpred.symm.trans_le hsmall))
  have hforward := gwExamine_of_ok conn (s := { s with tcpBuf := buf, env := s.env.afterTcpAccept.afterTcpRead })
    (frameComplete_iff.2 ⟨h7, hfield⟩) hparse hsmall hextract
  exact exec_gwStep_of_eq ((gwStepOp_of_read hg hc hbuf).trans (hforward.trans (gwForward_eq conn _ uid pdu _ hfits)))

/-! ## The Awaiting step -/

/-- Settles O44. -/
theorem gwStepWaitsOrTimesOut : Obligations.GwStepWaitsOrTimesOut := by
  unfold Obligations.GwStepWaitsOrTimesOut
  intro s s1 x hg hx hpoll
  have hmask := (lnkPollOp_leaves s).1.1
  rw [hpoll] at hmask
  have hport : s1.resPort = s.resPort := (congrArg State.resPort hmask :)
  have htxn : s1.txn = some x := (congrArg State.txn hmask :).trans hx
  exact hport ▸ next_finish_ite ((gwStepOp_undelivered hg hpoll).trans
    (if_congr (txnDeadline_eq htxn ▸ reached_iff) rfl rfl))

theorem txnTid_eq {s : State} {x : Txn} (h : s.txn = some x) : s.txnTid = x.tid := by
  rw [State.txnTid, h]

theorem txnConn_eq {s : State} {x : Txn} (h : s.txn = some x) : s.txnConn = x.conn := by
  rw [State.txnConn, h]

/-- Settles O45. -/
theorem gwStepResponds : Obligations.GwStepResponds := by
  unfold Obligations.GwStepResponds
  intro s s1 x uid2 pdu2 hg hx h1 h hpoll
  have hmask := (lnkPollOp_leaves s).1.1
  rw [hpoll] at hmask
  have hport : s1.resPort = s.resPort := (congrArg State.resPort hmask :)
  have htrace : s1.trace = s.trace := (congrArg State.trace hmask :)
  have htxn : s1.txn = some x := (congrArg State.txn hmask :).trans hx
  rw [← hport, ← htrace]
  exact exec_gwStep_of_eq ((gwStepOp_delivered hg hpoll).trans
    (gwReply_of_ok (rtuParseOp_rtuFrame uid2 s1 h1 h) h (txnTid_eq htxn) (txnConn_eq htxn)))

end Sys2Proof.Machine
end

section
/-!
What GW.STEP and GW.POLL guarantee (R271, R274, R280, R281).
-/

namespace Sys2Proof.Machine

/-! ## One step -/

theorem gwStep_ends_of_error {s t : State} {e : Byte} (hinv : s.Inv) (h : exec .gwStep s = .next t)
    (hport : t.resPort = s.resPort ++ [[e]]) : e ≠ 0x05 ∧ t.gwState = .idle ∧ t.tcpBuf = [] ∧ t.txn = none := by
  obtain ⟨⟨hmask, -⟩, -, herror⟩ := gwStepOp_runs s
  have hspec : SpecInv s := hinv.imp_right (And.imp_right (And.imp_right And.left))
  have hanswer : s.resPort ++ [gwAnswer (gwStepOp s).2] = s.resPort ++ [[e]] :=
    (congrArg (· ++ [gwAnswer (gwStepOp s).2]) (congrArg State.resPort hmask)).symm.trans
      ((congrArg State.resPort (Host.Outcome.next.inj h)).trans hport)
  exact Host.Outcome.next.inj h ▸ herror hspec e (List.singleton_inj.1 (List.append_cancel_left hanswer))

/-- Settles O47. -/
theorem gwStepNeverPduTooLarge : Obligations.GwStepNeverPduTooLarge := by
  unfold Obligations.GwStepNeverPduTooLarge
  exact fun s t hinv h hport => (gwStep_ends_of_error hinv h hport).1 rfl

/-- Settles O48. -/
theorem gwOneTransactionAtATime : Obligations.GwOneTransactionAtATime := by
  unfold Obligations.GwOneTransactionAtATime
  refine ⟨fun s t hg h => ?_, fun s t e hinv h hport => (gwStep_ends_of_error hinv h hport).2⟩
  obtain ⟨-, henv, -⟩ := gwStepOp_awaiting_runs hg
  obtain rfl := Host.Outcome.next.inj h
  exact ⟨(congrArg Env.acceptQ henv).trans ((Env.afterSerRead_acceptQ _).trans (Env.afterNow_acceptQ _)),
    (congrArg Env.readQ henv).trans ((Env.afterSerRead_readQ _).trans (Env.afterNow_readQ _))⟩

/-! ## GW.POLL -/

/-- Settles O49. -/
theorem gwPollOneStep : Obligations.GwPollOneStep := by
  unfold Obligations.GwPollOneStep
  refine ⟨rfl, fun s t hp h hidle => ?_⟩
  obtain ⟨⟨-, hpoll, -⟩, -⟩ := gwStepOp_runs s
  obtain rfl := Host.Outcome.next.inj h
  have hloop : gwLoop (gwLoopBound s) s = ((gwStepOp s).1, some (gwStepOp s).2) :=
    Nat.sub_add_cancel (gwLoopBound_pos s) ▸ gwLoop_of_idle _ hidle
  have hout : { (gwStepOp s).1 with gwPolling := false } = (gwStepOp s).1 :=
    congrArg (fun b => { (gwStepOp s).1 with gwPolling := b }) (hpoll.trans hp).symm
  exact congrArg Host.Outcome.next ((gwPollRun_of_gwLoop hloop).trans
    (congrArg (fun u => finish (fun o => encB (GwOutcome.code o)) (u, (gwStepOp s).2)) hout))

theorem gwAfter_succ (n : Nat) (s : State) : gwAfter (n + 1) s = (gwStepOp (gwAfter n s)).1 := by
  induction n generalizing s with
  | zero => rfl
  | succ n ih => exact ih _

/-- Settles O50. -/
theorem gwPollRepeatsStep : Obligations.GwPollRepeatsStep := by
  unfold Obligations.GwPollRepeatsStep
  intro s
  obtain ⟨n, hn, h⟩ := gwLoop_stopsAfter (gwLoopBound s - 1) s
  rw [Nat.sub_add_cancel (gwLoopBound_pos s)] at h
  have hport : (gwAfter (n + 1) s).resPort = s.resPort := (congrArg State.resPort (gwAfter_keeps (n + 1) s).1 :)
  have hends := (gwStepOp_runs (gwAfter n s)).2.1
  have hstep : gwStepOp (gwAfter n s) = (gwAfter (n + 1) s, (gwStepOp (gwAfter n s)).2) := Prod.ext (gwAfter_succ n s).symm rfl
  refine exists₂_intro (n + 1) (gwPollRun s) ⟨Nat.succ_pos n, rfl, fun k hpos hk => ?before,
    h.imp (fun hidle => ?idle) fun hawait => ?cut⟩
  case before => exact Nat.sub_add_cancel hpos ▸ hn (k - 1) (Nat.sub_lt_right_of_lt_add hpos hk)
  case idle =>
    obtain ⟨hidle, hr⟩ := hidle
    obtain ⟨hforwarded, hwaiting⟩ := hends ((congrArg (·.1.gwState) hstep).trans hidle)
    exact ⟨hidle, gwAnswer (gwStepOp (gwAfter n s)).2, exec_gwStep_of_eq hstep, hforwarded, hwaiting, hport ▸ gwPollRun_of_gwLoop hr⟩
  case cut => exact ⟨hawait.1, hport ▸ gwPollRun_of_gwLoop hawait.2⟩

/-- The loop ends Idle, nothing in flight, with an answer. -/
def LoopEnds (r : State × Option (Answer GwOutcome)) : Prop :=
  ∃ t a, r = (t, some a) ∧ t.gwState = .idle ∧ t.txn = none ∧ t.tcpBuf = []

theorem Env.now_of_nowQ {e : Env} {t : Millis} {q : List Millis} (h : e.nowQ = t :: q) : e.now = t := by
  rw [Env.now, h]

/-- R280: a sample that has reached the deadline ends the wait, at the latest when it is taken. -/
theorem gwLoop_ends {x : Txn} {q : List Millis} {m : Nat} {s : State} (hg : s.gwState = .awaiting) (hx : s.txn = some x)
    (hq : s.env.nowQ = q) (hm : q.length ≤ m) (h : q.any (reached · x.deadline) = true) : LoopEnds (gwLoop m s) := by
  induction q generalizing m s with
  | nil => exact absurd h Bool.false_ne_true
  | cons t q ih =>
    cases m with
    | zero => exact absurd hm (Nat.not_succ_le_zero _)
    | succ m =>
      obtain ⟨-, henv, ⟨hidle, hends⟩ | ⟨hawait, htxn, hwaits⟩⟩ := gwStepOp_awaiting_runs hg
      · exact exists₂_intro _ _ ⟨gwLoop_of_idle m hidle, hidle, hends⟩
      · have hlate : reached t x.deadline = false := Env.now_of_nowQ hq ▸ hwaits x hx
        have hnext : (gwStepOp s).1.env.nowQ = q := (congrArg Env.nowQ henv).trans
          ((Env.afterSerRead_nowQ _).trans ((Env.afterNow_nowQ _).trans (congrArg List.tail hq)))
        exact gwLoop_of_awaiting m hawait ▸ ih hawait (htxn.trans hx) hnext (Nat.le_of_succ_le_succ hm)
          ((congrArg (· || q.any (reached · x.deadline)) hlate).symm.trans h)

theorem pollEnds_of_reached {s : State} {x : Txn} (hg : s.gwState = .awaiting) (hx : s.txn = some x)
    (h : ∃ now ∈ s.env.nowQ, reached now x.deadline = true) : pollEnds s := by
  obtain ⟨t, a, hr, hidle, htxn, hbuf⟩ := gwLoop_ends hg hx rfl (Nat.le_max_right 1 _) (List.any_eq_true.2 h)
  obtain ⟨hmask, -⟩ := gwLoop_keeps (P := GwKeeps s) (fun u hu => hu.trans (gwStepOp_runs u).1) (gwLoopBound s) s
    ⟨rfl, rfl, .refl s⟩
  have hport : t.resPort = s.resPort := (congrArg (·.1.resPort) hr).symm.trans (congrArg State.resPort hmask :)
  exact exists₂_intro _ (gwAnswer a) ⟨congrArg Host.Outcome.next (gwPollRun_of_gwLoop hr), rfl, hidle, htxn, hbuf,
    congrArg (· ++ [gwAnswer a]) hport⟩

/-- Settles O51. -/
theorem gwPollEndsByDeadline : Obligations.GwPollEndsByDeadline := by
  unfold Obligations.GwPollEndsByDeadline
  refine fun s x hg hx => ⟨pollEnds_of_reached hg hx, fun last hmono hlast hne htime => ?_⟩
  rw [Env.NowMonotone, hlast] at hmono
  exact pollEnds_of_reached hg hx (exists_reached_of_timePassed x.deadline last s.env.nowQ hne hmono htime)

end Sys2Proof.Machine
end

section
/-!
The bytes one poll gathers (R182, R184, R192, R323).
-/

namespace Sys2Proof.Machine

/-! ## The bytes of a poll -/

/-- The state with what the link framer has gathered. -/
noncomputable def State.gathered (s : State) (buf : Memory) (last : Millis) : State :=
  { s with lnkBuf := buf, lnkLastRx := last }

theorem lnkAccept_of_full (now : Millis) (b : Byte) {u : State} (h : u.lnkLen = u.par.lnkCap) :
    (lnkAccept now b u).1 = u.gathered [] u.lnkLastRx := (lnkAccept_fst ..).trans (if_pos h)

theorem lnkAccept_of_room (now : Millis) (b : Byte) {u : State} (h : u.lnkLen ≠ u.par.lnkCap) :
    (lnkAccept now b u).1 = u.gathered (u.lnkBuf ++ [b]) now := (lnkAccept_fst ..).trans (if_neg h)

/-- R182: behind a byte the line is not silent: the buffer is empty, or stamped with this NOW. -/
theorem lnkAccept_not_silent (now : Millis) (b : Byte) (u : State) : ¬(lnkAccept now b u).1.lineSilent now = true := by
  by_cases h : u.lnkLen = u.par.lnkCap
  · exact lnkAccept_of_full now b h ▸ Bool.false_ne_true
  · exact lnkAccept_of_room now b h ▸ fun hs =>
      Nat.not_lt_zero _ ((State.lineSilent_iff.1 hs).2.trans_eq (congrArg BitVec.toNat (BitVec.sub_self now)))

theorem lnkAcceptAll_not_silent (now : Millis) {bs : List Byte} (hne : bs ≠ []) (u : State) :
    ¬(lnkAcceptAll now bs u).lineSilent now = true := by
  induction bs generalizing u with
  | nil => exact absurd rfl hne
  | cons b r ih =>
    cases r with
    | nil => exact lnkAccept_not_silent now b u
    | cons c r => exact ih (List.cons_ne_nil c r) _

/-- R184: what fits is kept. -/
theorem lnkAcceptAll_fits (now : Millis) (bs : List Byte) {u : State} (h : (u.lnkBuf ++ bs).length ≤ u.par.lnkCap) :
    lnkAcceptAll now bs u = u.gathered (u.lnkBuf ++ bs) (bif bs.isEmpty then u.lnkLastRx else now) := by
  induction bs generalizing u with
  | nil => exact congrArg (u.gathered · u.lnkLastRx) (List.append_nil _).symm
  | cons b r ih =>
    rw [List.append_cons] at h ⊢
    have hroom : u.lnkLen < u.par.lnkCap :=
      (Nat.lt_succ_self _).trans_le (List.length_append.symm.trans_le ((List.prefix_append _ r).length_le.trans h))
    exact (congrArg (lnkAcceptAll now r) (lnkAccept_of_room now b hroom.ne)).trans
      ((ih h).trans (congrArg (u.gathered _) (Bool.cond_self ..)))

/-- R184: a poll that reads a byte delivers nothing. -/
theorem lnkPollOp_of_bytes {s : State} (hne : s.env.afterNow.serRead ≠ []) : lnkPollOp s = (lnkGather s, none) :=
  (lnkPollOp_eq s).trans (if_neg (lnkAcceptAll_not_silent s.env.now hne _))

/-- R184: a poll keeps what fits. -/
theorem lnkGather_of_fits {s : State} (hne : s.env.afterNow.serRead ≠ [])
    (h : (s.lnkBuf ++ s.env.afterNow.serRead).length ≤ s.par.lnkCap) :
    lnkGather s = s.afterNow.afterSerRead.gathered (s.lnkBuf ++ s.env.afterNow.serRead) s.env.now :=
  (lnkAcceptAll_fits (u := s.afterNow.afterSerRead) s.env.now _ h).trans
    (congrArg (fun b => State.gathered _ _ (bif b then _ else _)) (List.isEmpty_eq_false_iff.2 hne))

theorem lnkAcceptAll_append (now : Millis) (p q : List Byte) (u : State) :
    lnkAcceptAll now (p ++ q) u = lnkAcceptAll now q (lnkAcceptAll now p u) := by
  induction p generalizing u with
  | nil => rfl
  | cons b p ih => exact ih _

/-- R192, R323: a byte that does not fit is lost with the buffer, and what comes behind it is kept. -/
theorem lnkAcceptAll_of_full (now : Millis) (b : Byte) {q : List Byte} {u : State} (h : u.lnkLen = u.par.lnkCap)
    (hq : q.length ≤ u.par.lnkCap) : (lnkAcceptAll now (b :: q) u).lnkBuf = q :=
  (congrArg (fun v => (lnkAcceptAll now q v).lnkBuf) (lnkAccept_of_full now b h)).trans
    (congrArg State.lnkBuf (lnkAcceptAll_fits now q (u := u.gathered [] u.lnkLastRx) hq))

theorem lnkAcceptAll_overflow (now : Millis) {p q : List Byte} (b : Byte) {u : State} (hp : (u.lnkBuf ++ p).length = u.par.lnkCap)
    (hq : q.length ≤ u.par.lnkCap) : (lnkAcceptAll now (p ++ b :: q) u).lnkBuf = q := by
  rw [lnkAcceptAll_append, lnkAcceptAll_fits now p hp.le]
  exact lnkAcceptAll_of_full now b hp hq

/-- Settles O26. -/
theorem lnkPollCollectsOrLosesSilently : Obligations.LnkPollCollectsOrLosesSilently := by
  unfold Obligations.LnkPollCollectsOrLosesSilently
  rintro s rx rfl hne
  have hexec : exec .lnkPoll s =
      .next { lnkGather s with resPort := (lnkGather s).resPort ++ [[0x00, 0x00]] } :=
    congrArg (fun r : State × Option (List Byte) => Host.Outcome.next (finish encOptS (r.1.ret r.2))) (lnkPollOp_of_bytes hne)
  have hport : (lnkGather s).resPort ++ [[0x00, 0x00]] = s.resPort ++ [[0x00, 0x00]] := congrArg (· ++ _) (lnkGather_frame s).1
  refine ⟨⟨_, hexec, hport⟩, fun hfit => ?fits, fun k hfit hlen hk => ⟨_, hexec, ?overflow, hport⟩⟩
  case fits =>
    rw [lnkGather_of_fits hne (List.length_append.trans_le hfit)] at hexec
    dsimp only [State.gathered, State.afterNow, State.afterSerRead] at hexec
    exact hexec
  case overflow =>
    obtain ⟨n, hn⟩ := Nat.exists_eq_add_of_le hfit
    have hcount : s.env.afterNow.serRead.length = n + 1 + k :=
      Nat.add_left_cancel (hlen.trans ((congrArg (· + 1 + k) hn).trans (Nat.add_assoc s.lnkLen (n + 1) k)))
    have hlt : n < s.env.afterNow.serRead.length := (Nat.le_add_right (n + 1) k).trans_eq hcount.symm
    have hsplit := (List.take_append_drop n _).symm.trans (congrArg (s.env.afterNow.serRead.take n ++ ·) (List.drop_eq_getElem_cons hlt))
    have hfull : (s.lnkBuf ++ s.env.afterNow.serRead.take n).length = s.par.lnkCap :=
      List.length_append.trans ((congrArg (s.lnkLen + ·) (List.length_take_of_le hlt.le)).trans hn.symm)
    have hkept : (s.env.afterNow.serRead.drop (n + 1)).length = k :=
      List.length_drop.trans ((congrArg (· - (n + 1)) hcount).trans (Nat.add_sub_cancel_left ..))
    exact (congrArg (fun r => (lnkAcceptAll s.env.now r s.afterNow.afterSerRead).lnkBuf) hsplit).trans
      ((lnkAcceptAll_overflow (u := s.afterNow.afterSerRead) _ _ hfull (hkept.trans_le hk)).trans
        (congrArg (s.env.afterNow.serRead.drop ·) ((congrArg (· - k) hcount).trans (Nat.add_sub_cancel ..)).symm))

end Sys2Proof.Machine
end

section
/-!
The whole cycle of the gateway (R272, R275, R283): the three steps one GW.POLL takes, each as an equation.
-/

namespace Sys2Proof.Machine

/-! ## The step that forwards -/

/-- R100, R212: a whole frame is complete. -/
theorem frameComplete_tcpFrame (tid : Half) (uid : Byte) {pdu : List Byte} (h : pdu.length ≤ 253) :
    frameComplete (tcpFrame tid uid pdu) = true := by
  have hfield : (be16 (tcpFrame tid uid pdu) 4).toNat = pdu.length + 1 :=
    (congrArg (fun f => (be16 f 4).toNat) (List.append_nil _).symm).trans (lengthField_tcpFrame tid uid [] h)
  rw [frameComplete_iff, hfield, tcpFrame_length]
  omega

/-- R270, R272: a whole frame in TCPBUF is forwarded. -/
theorem gwExamine_tcpFrame (conn : Conn) {s : State} {tid : Half} {uid : Byte} {pdu : List Byte} (h : pdu.length ≤ 253)
    (hbuf : s.tcpBuf = tcpFrame tid uid pdu) : gwExamine conn s = gwForward conn tid uid pdu s := by
  have hparse := mbapParse_tcpFrame tid uid [] h
  have hextract := pduExtract_tcpFrame tid uid [] h
  rw [List.append_nil, ← hbuf] at hparse hextract
  exact gwExamine_of_ok conn (hbuf ▸ frameComplete_tcpFrame tid uid h) hparse ((length_toNat h).trans_le h) hextract

/-- R268, R272: a frame that is read whole into an empty TCPBUF is forwarded. -/
theorem gwStepOp_of_request {s : State} {conn : Conn} {tid : Half} {uid : Byte} {pdu : List Byte} {tq : List (List Byte)}
    (hg : s.gwState = .idle) (hbuf : s.tcpBuf = []) (hc : s.env.tcpAccept = some conn) (h : pdu.length ≤ 253)
    (hq : s.env.afterTcpAccept.readQ = tcpFrame tid uid pdu :: tq) :
    gwStepOp s = ({ s with
      crc := crc16 (uid :: pdu)
      lnkBuf := if s.par.lnkClearOnSend then [] else s.lnkBuf
      lnkDir := .receive
      tcpBuf := tcpFrame tid uid pdu
      gwState := .awaiting
      txn := some { tid, uid, pdu, deadline := s.env.afterTcpAccept.afterTcpRead.now + s.cfgRtuTimeoutMs, conn }
      trace := s.trace ++ sendEvents (rtuFrame uid pdu)
      env := s.env.afterTcpAccept.afterTcpRead.afterNow }, .ok .forwarded) := by
  have hread : s.env.afterTcpAccept.tcpRead 260 = tcpFrame tid uid pdu := by
    rw [Env.tcpRead, hq]
    exact List.take_of_length_le (tcpFrame_fits tid uid h)
  have hkept : tcpFrame tid uid pdu = s.tcpBuf ++ s.env.afterTcpAccept.tcpRead (260 - s.tfaLen) := by
    rw [State.tfaLen, hbuf]
    exact hread.symm
  exact (gwStepOp_of_read hg hc hkept).trans ((gwExamine_tcpFrame conn h rfl).trans (gwForward_eq conn tid uid pdu _ h))

/-! ## The step that waits -/

/-- R274: bytes come before the deadline; they are kept and the wait goes on. -/
theorem gwStepOp_of_bytes {s : State} {x : Txn} {buf : Memory} (hg : s.gwState = .awaiting) (hx : s.txn = some x)
    (hne : s.env.afterNow.serRead ≠ []) (hbuf : s.lnkBuf ++ s.env.afterNow.serRead = buf) (hfit : buf.length ≤ s.par.lnkCap)
    (hd : reached s.env.now x.deadline = false) :
    gwStepOp s = (s.afterNow.afterSerRead.gathered buf s.env.now, .ok .waiting) := by
  subst hbuf
  have hpoll := (lnkPollOp_of_bytes hne).trans (congrArg (·, none) (lnkGather_of_fits hne hfit))
  have hdeadline : (s.afterNow.afterSerRead.gathered (s.lnkBuf ++ s.env.afterNow.serRead) s.env.now).txnDeadline = x.deadline :=
    txnDeadline_eq hx
  rw [gwStepOp_undelivered hg hpoll, hdeadline, hd]
  exact if_neg Bool.false_ne_true

/-! ## The step that responds -/

/-- R184: when nothing comes and the line has been silent, what was kept is delivered. -/
theorem lnkPollOp_of_silence {s : State} (hread : s.env.afterNow.serRead = []) (h : s.lineSilent s.env.now = true) :
    lnkPollOp s = (s.afterNow.afterSerRead.gathered [] s.lnkLastRx, some s.lnkBuf) := by
  have hgather : lnkGather s = s.afterNow.afterSerRead := congrArg (lnkAcceptAll s.env.now · s.afterNow.afterSerRead) hread
  rw [lnkPollOp_eq, hgather]
  exact if_pos h

/-- R275: a reply kept whole goes back once the line has been silent. -/
theorem gwStepOp_of_silence {s : State} {x : Txn} {uid : Byte} {pdu : List Byte} (hg : s.gwState = .awaiting)
    (hx : s.txn = some x) (h1 : 1 ≤ pdu.length) (h : pdu.length ≤ 253) (hbuf : s.lnkBuf = rtuFrame uid pdu)
    (hread : s.env.afterNow.serRead = []) (hsilent : s.cfgSilenceMs.toNat < (s.env.now - s.lnkLastRx).toNat) :
    gwStepOp s = (gwEnd { s.afterNow.afterSerRead.gathered [] s.lnkLastRx with
      crc := crc16 (uid :: pdu)
      tcpTx := tcpFrame x.tid uid pdu
      trace := s.trace ++ [.tcpSend x.conn (tcpFrame x.tid uid pdu)] }, .ok .responded) := by
  have hkept : 0 < s.lnkLen := by
    rw [State.lnkLen, hbuf, rtuFrame_length]
    omega
  have hpoll := lnkPollOp_of_silence hread (State.lineSilent_iff.2 ⟨hkept, hsilent⟩)
  rw [hbuf] at hpoll
  exact (gwStepOp_delivered hg hpoll).trans
    (gwReply_of_ok (rtuParseOp_rtuFrame uid _ h1 h) h (txnTid_eq (x := x) hx) (txnConn_eq (x := x) hx))

/-! ## The statement -/

/-- R280: a loop whose third step is the first to end Idle. -/
theorem gwLoop_of_three_steps {s t u v : State} {a b c : Answer GwOutcome} (n : Nat) (h1 : gwStepOp s = (t, a))
    (h2 : gwStepOp t = (u, b)) (h3 : gwStepOp u = (v, c)) (ht : t.gwState = .awaiting) (hu : u.gwState = .awaiting)
    (hv : v.gwState = .idle) : gwLoop (n + 3) s = (v, some c) := by
  rw [gwLoop_of_awaiting (n + 2) ((congrArg (·.1.gwState) h1).trans ht), h1,
    gwLoop_of_awaiting (n + 1) ((congrArg (·.1.gwState) h2).trans hu), h2,
    gwLoop_of_idle n ((congrArg (·.1.gwState) h3).trans hv), h3]

/-- R280: a loop that ends has the answer of its last step posted. -/
theorem exec_gwPoll_of_gwLoop {s t u : State} {a : Answer GwOutcome} (h : gwLoop (gwLoopBound s) s = (t, some a))
    (hu : { t with gwPolling := false, resPort := t.resPort ++ [gwAnswer a] } = u) : exec .gwPoll s = .next u :=
  congrArg Host.Outcome.next ((gwPollRun_of_gwLoop h).trans hu)

/-- R11, R106: a frame of the RTU line fits in LNKBUF. -/
theorem rtuFrame_fits (uid : Byte) {pdu : List Byte} (p : Params) (h : pdu.length ≤ 253) :
    (rtuFrame uid pdu).length ≤ p.lnkCap := by
  rw [rtuFrame_length, Params.lnkCap]
  omega

/-- Settles O52. The first step forwards, the second keeps the reply, the third finds the line silent and responds. -/
theorem gatewayRelaysEveryTransaction : Obligations.GatewayRelaysEveryTransaction := by
  unfold Obligations.GatewayRelaysEveryTransaction
  rintro ⟨crc, lnkBuf, lastRx, dir, tcpBuf, tcpTx, gwState, txn, silence, timeout, cmds, res, trace, polling,
    ⟨nowQ, rxQ, acceptQ, readQ, drawn, lastNow⟩, par⟩ conn tid uid uid2 pdu pdu2 n0 n1 n2 nq rq tq aq
    rfl rfl rfl hpdu h1 hpdu2 rfl rfl rfl rfl hdeadline hsilent
  have hkept : (if par.lnkClearOnSend then [] else []) ++ rtuFrame uid2 pdu2 = rtuFrame uid2 pdu2 :=
    congrArg (· ++ rtuFrame uid2 pdu2) (ite_self _)
  rw [← List.append_assoc]
  exact exec_gwPoll_of_gwLoop (gwLoop_of_three_steps nq.length
    (gwStepOp_of_request rfl rfl rfl hpdu rfl)
    (gwStepOp_of_bytes rfl rfl (List.cons_ne_nil _ _) hkept (rtuFrame_fits uid2 par hpdu2) hdeadline)
    (gwStepOp_of_silence rfl rfl h1 hpdu2 rfl rfl hsilent) rfl rfl rfl) rfl

end Sys2Proof.Machine
end
